-- ==== Sys2Proof/Word.lean ====
section
/-! DEFINITION. The word types of the TG24 model: bytes, two-byte and four-byte fields of the frames,
tick values, and the numbers of slots, clients and channels. -/

namespace Sys2Proof

/-- One byte of a frame. -/
abbrev Byte := BitVec 8

/-- A two-byte field of a payload (R164, Table 44): handles, amounts, floors, quotas, budgets, timeouts, tags. -/
abbrev Half := BitVec 16

/-- A four-byte field of a payload: lease lengths and ticks. -/
abbrev Quad := BitVec 32

/-- A value of the tick counter, or a deadline on it: 32 bits, wrapping (R26, R27). -/
abbrev Tick := BitVec 32

/-- Slots 0 to 63 of the grant table (1.1). -/
abbrev SlotId := Fin 64

/-- Client 0 (the supervisor) and clients 1 to 15 (4.2). -/
abbrev ClientId := Fin 16

/-- Channels CH0 to CH23 (4.2). -/
abbrev ChannelId := Fin 24

/-- A supply tier code 0 to 3 (R43). -/
abbrev Tier := Fin 4

end Sys2Proof
end

