-- ==== Sys2Proof/Config.lean ====
section
/-! DEFINITION. What the manual leaves open and the model leaves free. -/

namespace Sys2Proof

/-- The order in which one claim takes several things whose order the manual does not fix: the retirements
of one fault (R121), the READY postings of one power-good (R113), and the expiries that are due together
(R29, R31, R38). The first argument tells one claim from another, the second is the code of the thing; the
things are taken by rising rank. Nothing constrains the ranks. DESIGN CHOICE, log entry 9. -/
opaque Config.rank : Nat → Nat → Nat

end Sys2Proof
end

