-- ==== Sys2Proof/Syntax.lean ====
section
/-! DEFINITION. The commands and events of the TG24: one constructor per row of spec/opcode_table.json.
The operands of a command are the fields of its request frame as the frame carries them (Tables 44, 48, 49),
so that a value out of range can be written and is refused by the command's own rule. -/

namespace Sys2Proof

/-- The two port units (9.1). -/
inductive PortId where
  | client
  | management
deriving DecidableEq, Repr

/-- How a transaction reaches a port unit: the SPI client port (R162), or the I2C bus with the 7-bit
address the host sent (R163). -/
inductive Bus where
  | spi
  | i2c (address : BitVec 7)
deriving DecidableEq, Repr

/-- A transaction as the wires carry it, from its start to its end.
On SPI (R162): the whole bytes shifted in on MOSI from the fall of CS_N to its rise, the direction byte first, and
how many bits of a further byte were shifted in when CS_N rose.
On I2C (R163): the 7-bit address, the direction bit, and the whole bytes after them; the host writes them where the
direction bit is 0, and where it is 1 only their number counts, since the port sends them. -/
inductive Transfer where
  | spi (mosi : List Byte) (partialBits : Fin 8)
  | i2c (address : BitVec 7) (direction : BitVec 1) (bytes : List Byte)
deriving DecidableEq, Repr

/-- The payload of an ANSWER frame (Table 48): the handle and the answer byte, 0 for ACK, 1 for NAK, 2 for BUSY. -/
structure AnswerFields where
  handle : Half
  answer : Byte
deriving DecidableEq, Repr

/-- The levels of the input pins when reset is released: the tier code on TIER1 and TIER0, SAFE_N, ADDR,
and PGn and FLTn_N of every channel (bit n for channel n); true is high. -/
structure Pins where
  tier  : Tier
  safeN : Bool
  addr  : Bool
  pg    : BitVec 24
  fltN  : BitVec 24
deriving DecidableEq, Repr

/-- The rows of spec/opcode_table.json. In every command `p` is the port its frame arrived on and `c` the
acting client that the frame names. -/
inductive Instr where
  /-- REQUEST (R56), with the fields of Table 49. -/
  | request (p : PortId) (c : ClientId) (channel : Byte) (amount : Half) (cls flags : Byte)
      (lease : Quad) (floor timeout tag : Half)
  /-- RELEASE (R21). -/
  | release (p : PortId) (c : ClientId) (handle : Half)
  /-- RESIZE (R72). -/
  | resize (p : PortId) (c : ClientId) (handle amount : Half)
  /-- RENEW (R35). -/
  | renew (p : PortId) (c : ClientId) (handle : Half)
  /-- ANSWER with answer ACK (R90). -/
  | answerAck (p : PortId) (c : ClientId) (handle : Half)
  /-- ANSWER with answer NAK (R91). -/
  | answerNak (p : PortId) (c : ClientId) (handle : Half)
  /-- ANSWER with answer BUSY (R92), with the answer byte as the frame carries it: 2 for BUSY, and a byte that is
  none of ACK, NAK and BUSY for a frame that is answered RANGE (R89; log entry 5). -/
  | answerBusy (p : PortId) (c : ClientId) (fields : AnswerFields)
  /-- QUERY (R22). -/
  | query (p : PortId) (c : ClientId) (handle : Half)
  /-- LIST (R23), with the filters byte, the two filters and the first slot. -/
  | list (p : PortId) (c : ClientId) (filters client channel first : Byte)
  /-- NEXT_NOTICE (R140). -/
  | nextNotice (p : PortId) (c : ClientId)
  /-- CLIENT_STATUS (R143); the target is optional. -/
  | clientStatus (p : PortId) (c : ClientId) (target : Option Byte)
  /-- OPEN_CLIENT (R133). -/
  | openClient (p : PortId) (c : ClientId) (client : Byte) (quota : Half) (limit best attention : Byte)
  /-- CLOSE_CLIENT (R134). -/
  | closeClient (p : PortId) (c : ClientId) (client : Byte)
  /-- FORCE_RETIRE (R24). -/
  | forceRetire (p : PortId) (c : ClientId) (handle : Half)
  /-- WRITE_SETTING of TIER_BUDGET (R50). -/
  | writeTierBudget (p : PortId) (c : ClientId) (index : Byte) (value : Half)
  /-- WRITE_SETTING of BUDGET_CAP (R50). -/
  | writeBudgetCap (p : PortId) (c : ClientId) (index : Byte) (value : Half)
  /-- WRITE_SETTING of RESERVE_0 (R51). -/
  | writeReserve0 (p : PortId) (c : ClientId) (index : Byte) (value : Half)
  /-- WRITE_SETTING of EVENT_MASK (R158). -/
  | writeEventMask (p : PortId) (c : ClientId) (index : Byte) (value : Half)
  /-- WRITE_SETTING of CH_ENABLE (R109). -/
  | writeChEnable (p : PortId) (c : ClientId) (index : Byte) (value : Half)
  /-- WRITE_SETTING of any other key, known or not (R156). -/
  | writeSetting (p : PortId) (c : ClientId) (key index : Byte) (value : Half)
  /-- READ_SETTING (R155). -/
  | readSetting (p : PortId) (c : ClientId) (key index : Byte)
  /-- START (R149). -/
  | start (p : PortId) (c : ClientId)
  /-- HOLD (R150). -/
  | hold (p : PortId) (c : ClientId)
  /-- RESUME (R150). -/
  | resume (p : PortId) (c : ClientId)
  /-- ENTER_SAFE (R152). -/
  | enterSafe (p : PortId) (c : ClientId)
  /-- RESTART (R153). -/
  | restart (p : PortId) (c : ClientId)
  /-- UNLOCK_CHANNEL (R125). -/
  | unlockChannel (p : PortId) (c : ClientId) (channel : Byte)
  /-- READ_STATUS (R160). -/
  | readStatus (p : PortId) (c : ClientId)
  /-- READ_CHANNEL (R126). -/
  | readChannel (p : PortId) (c : ClientId) (channel : Byte)
  /-- CLEAR_EVENTS (R159). -/
  | clearEvents (p : PortId) (c : ClientId) (flags : Byte)
  /-- WRITE_TRANSACTION (R161): the whole bytes that followed the direction or address byte. -/
  | writeTransaction (bus : Bus) (bytes : List Byte)
  /-- READ_TRANSACTION (R169): `count` whole bytes were clocked out. -/
  | readTransaction (bus : Bus) (count : Nat)
  /-- DIRECTION_BYTE_REFUSED (R162): an SPI transaction whose direction byte is neither 0x01 nor 0x02,
  followed by `count` whole bytes. -/
  | directionByteRefused (direction : Byte) (count : Nat)
  /-- RESPONSE_PLACED (R167). -/
  | responsePlaced (p : PortId)
  /-- TICK (R26). -/
  | tick
  /-- LEASE_EXPIRY (R37). -/
  | leaseExpiry (slot : SlotId)
  /-- WAIT_EXPIRY (R66). -/
  | waitExpiry (slot : SlotId)
  /-- NOTICE_EXPIRY (R95). -/
  | noticeExpiry (slot : SlotId)
  /-- START_TIMEOUT (R114). -/
  | startTimeout (n : ChannelId)
  /-- DISCHARGE_EXPIRY (R118). -/
  | dischargeExpiry (n : ChannelId)
  /-- COOLDOWN_EXPIRY (R123). -/
  | cooldownExpiry (n : ChannelId)
  /-- CLEAN_EXPIRY (R124). -/
  | cleanExpiry (n : ChannelId)
  /-- SETTLE_EXPIRY (R45). -/
  | settleExpiry
  /-- LINE_CHANGE (R44): the TIER lines now show `value`. -/
  | lineChange (value : Tier)
  /-- POWER_GOOD (R113): PGn rises. -/
  | powerGood (n : ChannelId)
  /-- POWER_LOSS (R119): PGn falls. -/
  | powerLoss (n : ChannelId)
  /-- TRIP (R119): FLTn_N falls. -/
  | trip (n : ChannelId)
  /-- FLT_RISE (R110): FLTn_N rises. -/
  | fltRise (n : ChannelId)
  /-- SAFE_N_FALL (R152). -/
  | safeNFall
  /-- SAFE_N_RISE (R152). -/
  | safeNRise
  /-- POWER_ON (R154), with the pin levels at the release of reset. -/
  | powerOn (pins : Pins)
  /-- PIN_RESET (R154): RESET_N low and then released, with the pin levels at the release. -/
  | pinReset (pins : Pins)
  /-- RESET_SAFE_ENTRY (R152). -/
  | resetSafeEntry
  /-- SAMPLED_LINE_EVENT (R110): the event that the sample at the entry to STARTING raised. -/
  | sampledLineEvent (n : ChannelId)
deriving DecidableEq, Repr

end Sys2Proof
end

