-- ==== Sys2Proof/Decode.lean ====
section
/-! DEFINITION. Decoding. The opcode table gives no row any bits, so no word spells a command. What the TG24
does decode is the transactions on its wires (R162, R163) and its request frames: the CRC (R165), the checks of a
port unit (R164), the command that a frame hands on (Tables 44, 48, 49), and, the other way, the frame of a command. -/

namespace Sys2Proof

/-- The command that a word spells by the table's bits: no row of spec/opcode_table.json gives bits. -/
def decodeTableWord (_nbits _w : Nat) : Option Instr := none

/-! ## Transactions (R162, R163) -/

/-- The row that a transaction on the wires is. On SPI the direction byte picks it: 0x01 a write of the bytes that
follow, 0x02 a read, any other a refusal; a partial byte is discarded, and a transaction that ends before a whole
direction byte is no event (R162). On I2C the direction bit picks it (R163). -/
def Transfer.row : Transfer → Option Instr
  | .spi [] _ => none
  | .spi (d :: bytes) _ =>
    if d = 0x01 then some (.writeTransaction .spi bytes)
    else if d = 0x02 then some (.readTransaction .spi bytes.length)
    else some (.directionByteRefused d bytes.length)
  | .i2c a direction bytes =>
    if direction = 0 then some (.writeTransaction (.i2c a) bytes) else some (.readTransaction (.i2c a) bytes.length)

/-! ## CRC (R165) -/

/-- One shift of the CRC: left by one, combined with 0x07 when the bit shifted out is 1. -/
def crcShift (r : Byte) : Byte := if r.msb then (r <<< 1) ^^^ 0x07 else r <<< 1

/-- The CRC after one more byte: exclusive-or, then eight shifts. -/
def crcByte (r x : Byte) : Byte := (List.range 8).foldl (fun a _ => crcShift a) (r ^^^ x)

/-- The CRC of the bytes of a frame, in frame order, from the initial value 0x00. -/
def crc (bytes : List Byte) : Byte := bytes.foldl crcByte 0

/-! ## Fields of a payload: most significant byte first (9.2) -/

/-- Byte `k` of a payload. -/
def byteAt (payload : List Byte) (k : Nat) : Byte := payload.getD k 0

/-- The two-byte field at byte `k`. -/
def halfAt (payload : List Byte) (k : Nat) : Half := byteAt payload k ++ byteAt payload (k + 1)

/-- The four-byte field at byte `k`. -/
def quadAt (payload : List Byte) (k : Nat) : Quad := halfAt payload k ++ halfAt payload (k + 2)

/-- The two bytes of a field. -/
def halfBytes (h : Half) : List Byte := [h.extractLsb' 8 8, h.extractLsb' 0 8]

/-- The four bytes of a field. -/
def quadBytes (q : Quad) : List Byte := halfBytes (q.extractLsb' 16 16) ++ halfBytes (q.extractLsb' 0 16)

/-! ## Frames -/

/-- The payload lengths that Table 48 allows for a command code; none for an unknown code. -/
def payloadLengths (code : Byte) : List Nat :=
  match code.toNat with
  | 0x10 => [15]
  | 0x11 => [2]
  | 0x12 => [4]
  | 0x13 => [2]
  | 0x14 => [3]
  | 0x15 => [2]
  | 0x16 => [4]
  | 0x17 => [0]
  | 0x18 => [0, 1]
  | 0x20 => [6]
  | 0x21 => [1]
  | 0x22 => [2]
  | 0x23 => [4]
  | 0x24 => [2]
  | 0x25 => [0]
  | 0x26 => [0]
  | 0x27 => [0]
  | 0x28 => [0]
  | 0x29 => [0]
  | 0x2A => [1]
  | 0x2B => [0]
  | 0x2C => [1]
  | 0x2D => [1]
  | _ => []

/-- The client that a client-and-tag byte names: bits 7 to 4 (Table 44). -/
def clientOfByte (b : Byte) : ClientId := Fin.ofNat 16 (b.toNat / 16)

/-- The client-and-tag byte of a client and a host tag. -/
def clientByte (c : ClientId) (hostTag : BitVec 4) : Byte := BitVec.ofNat 8 (c.val * 16 + hostTag.toNat)

/-- What a port unit finds in a request frame (R164). -/
inductive FrameCheck where
  /-- Refused with BADFRAME: form, CRC or payload length. -/
  | badFrame
  /-- Refused with UNKNOWN: the command code is none of Table 48. -/
  | unknown
  /-- The frame passes and hands on this command. -/
  | handsOn (i : Instr)
deriving DecidableEq, Repr

/-- The row that an ANSWER frame stands for, by its answer byte (Table 48). A byte that is none of ACK, NAK and BUSY
travels in the row ANSWER_BUSY, whose claim answers it RANGE (R89; log entry 5). -/
def answerOf (p : PortId) (c : ClientId) (handle : Half) (answer : Byte) : Instr :=
  match answer.toNat with
  | 0 => .answerAck p c handle
  | 1 => .answerNak p c handle
  | _ => .answerBusy p c { handle := handle, answer := answer }

/-- The row that a WRITE_SETTING frame stands for, by its key byte (Table 55). -/
def writeOf (p : PortId) (c : ClientId) (key index : Byte) (value : Half) : Instr :=
  match key.toNat with
  | 0x01 => .writeTierBudget p c index value
  | 0x02 => .writeBudgetCap p c index value
  | 0x03 => .writeReserve0 p c index value
  | 0x07 => .writeEventMask p c index value
  | 0x10 => .writeChEnable p c index value
  | _ => .writeSetting p c key index value

/-- The command of a frame whose code and payload length have passed R164 (Table 48). -/
def commandOf (p : PortId) (c : ClientId) (code : Byte) (payload : List Byte) : FrameCheck :=
  let b := byteAt payload
  let h := halfAt payload
  match code.toNat with
  | 0x10 => .handsOn (.request p c (b 0) (h 1) (b 3) (b 4) (quadAt payload 5) (h 9) (h 11) (h 13))
  | 0x11 => .handsOn (.release p c (h 0))
  | 0x12 => .handsOn (.resize p c (h 0) (h 2))
  | 0x13 => .handsOn (.renew p c (h 0))
  | 0x14 => .handsOn (answerOf p c (h 0) (b 2))
  | 0x15 => .handsOn (.query p c (h 0))
  | 0x16 => .handsOn (.list p c (b 0) (b 1) (b 2) (b 3))
  | 0x17 => .handsOn (.nextNotice p c)
  | 0x18 => .handsOn (.clientStatus p c payload.head?)
  | 0x20 => .handsOn (.openClient p c (b 0) (h 1) (b 3) (b 4) (b 5))
  | 0x21 => .handsOn (.closeClient p c (b 0))
  | 0x22 => .handsOn (.forceRetire p c (h 0))
  | 0x23 => .handsOn (writeOf p c (b 0) (b 1) (h 2))
  | 0x24 => .handsOn (.readSetting p c (b 0) (b 1))
  | 0x25 => .handsOn (.start p c)
  | 0x26 => .handsOn (.hold p c)
  | 0x27 => .handsOn (.resume p c)
  | 0x28 => .handsOn (.enterSafe p c)
  | 0x29 => .handsOn (.restart p c)
  | 0x2A => .handsOn (.unlockChannel p c (b 0))
  | 0x2B => .handsOn (.readStatus p c)
  | 0x2C => .handsOn (.readChannel p c (b 0))
  | 0x2D => .handsOn (.clearEvents p c (b 0))
  | _ => .unknown

/-- The form of a request frame (R164 check 1): at least 4 bytes, length byte at most 40, and as many bytes
as the length byte plus 4. -/
def frameFormOk (bytes : List Byte) : Bool :=
  decide (4 ≤ bytes.length) && decide ((byteAt bytes 2).toNat ≤ 40)
    && decide (bytes.length = (byteAt bytes 2).toNat + 4)

/-- The CRC of a request frame (R164 check 2): the last byte is the CRC of those before it. -/
def frameCrcOk (bytes : List Byte) : Bool := bytes.getLast? == some (crc bytes.dropLast)

/-- The checks of R164, in their order, and the command of a frame that passes them all. -/
def checkFrame (p : PortId) (bytes : List Byte) : FrameCheck :=
  let code := byteAt bytes 0
  let payload := (bytes.drop 3).dropLast
  if !frameFormOk bytes then .badFrame
  else if !frameCrcOk bytes then .badFrame
  else if (payloadLengths code).isEmpty then .unknown
  else if !(payloadLengths code).contains payload.length then .badFrame
  else commandOf p (clientOfByte (byteAt bytes 1)) code payload

/-- The port, the acting client, the command code and the payload of a command row; none for the rows that
are no commands. -/
def commandParts : Instr → Option (PortId × ClientId × Byte × List Byte)
  | .request p c channel amount cls flags lease floor timeout tag =>
      some (p, c, 0x10, [channel] ++ halfBytes amount ++ [cls, flags] ++ quadBytes lease
        ++ halfBytes floor ++ halfBytes timeout ++ halfBytes tag)
  | .release p c handle => some (p, c, 0x11, halfBytes handle)
  | .resize p c handle amount => some (p, c, 0x12, halfBytes handle ++ halfBytes amount)
  | .renew p c handle => some (p, c, 0x13, halfBytes handle)
  | .answerAck p c handle => some (p, c, 0x14, halfBytes handle ++ [0])
  | .answerNak p c handle => some (p, c, 0x14, halfBytes handle ++ [1])
  | .answerBusy p c fields => some (p, c, 0x14, halfBytes fields.handle ++ [fields.answer])
  | .query p c handle => some (p, c, 0x15, halfBytes handle)
  | .list p c filters client channel first => some (p, c, 0x16, [filters, client, channel, first])
  | .nextNotice p c => some (p, c, 0x17, [])
  | .clientStatus p c target => some (p, c, 0x18, target.toList)
  | .openClient p c client quota limit best attention =>
      some (p, c, 0x20, [client] ++ halfBytes quota ++ [limit, best, attention])
  | .closeClient p c client => some (p, c, 0x21, [client])
  | .forceRetire p c handle => some (p, c, 0x22, halfBytes handle)
  | .writeTierBudget p c index value => some (p, c, 0x23, [0x01, index] ++ halfBytes value)
  | .writeBudgetCap p c index value => some (p, c, 0x23, [0x02, index] ++ halfBytes value)
  | .writeReserve0 p c index value => some (p, c, 0x23, [0x03, index] ++ halfBytes value)
  | .writeEventMask p c index value => some (p, c, 0x23, [0x07, index] ++ halfBytes value)
  | .writeChEnable p c index value => some (p, c, 0x23, [0x10, index] ++ halfBytes value)
  | .writeSetting p c key index value => some (p, c, 0x23, [key, index] ++ halfBytes value)
  | .readSetting p c key index => some (p, c, 0x24, [key, index])
  | .start p c => some (p, c, 0x25, [])
  | .hold p c => some (p, c, 0x26, [])
  | .resume p c => some (p, c, 0x27, [])
  | .enterSafe p c => some (p, c, 0x28, [])
  | .restart p c => some (p, c, 0x29, [])
  | .unlockChannel p c channel => some (p, c, 0x2A, [channel])
  | .readStatus p c => some (p, c, 0x2B, [])
  | .readChannel p c channel => some (p, c, 0x2C, [channel])
  | .clearEvents p c flags => some (p, c, 0x2D, [flags])
  | .writeTransaction _ _ => none
  | .readTransaction _ _ => none
  | .directionByteRefused _ _ => none
  | .responsePlaced _ => none
  | .tick => none
  | .leaseExpiry _ => none
  | .waitExpiry _ => none
  | .noticeExpiry _ => none
  | .startTimeout _ => none
  | .dischargeExpiry _ => none
  | .cooldownExpiry _ => none
  | .cleanExpiry _ => none
  | .settleExpiry => none
  | .lineChange _ => none
  | .powerGood _ => none
  | .powerLoss _ => none
  | .trip _ => none
  | .fltRise _ => none
  | .safeNFall => none
  | .safeNRise => none
  | .powerOn _ => none
  | .pinReset _ => none
  | .resetSafeEntry => none
  | .sampledLineEvent _ => none

/-- The request frame of a command code, a client-and-tag byte and a payload (Table 44). -/
def frameOf (code clientTag : Byte) (payload : List Byte) : List Byte :=
  let body := code :: clientTag :: BitVec.ofNat 8 payload.length :: payload
  body ++ [crc body]

/-- The request frame of a command row with a host tag. -/
def requestFrame (hostTag : BitVec 4) (i : Instr) : Option (List Byte) :=
  (commandParts i).map fun (_, c, code, payload) => frameOf code (clientByte c hostTag) payload

end Sys2Proof
end

