-- ==== Sys2Proof/Machine/State.lean ====
section
/-! DEFINITION. The state of the TG24, as plain data: the ten blocks of Table 1, the pins, the port units, and
the queue of the commands that are waiting. Power is counted in dW and time in ticks (4.1). -/

namespace Sys2Proof.Machine

/-- Controller states (Table 39). -/
inductive Mode where
  | config | run | hold | safe
deriving DecidableEq, Repr

/-- Shed states (Table 24). -/
inductive ShedState where
  | idle | shedding | strained
deriving DecidableEq, Repr

/-- Channel states (Table 29). -/
inductive ChannelState where
  | disabled | off | starting | on | stopping | faulted | locked
deriving DecidableEq, Repr

/-- Last fault causes (Table 30). -/
inductive Cause where
  | none | trip | powerLost | startTimeout
deriving DecidableEq, Repr

/-- Retire reasons (Table 5). -/
inductive Reason where
  | leaseExpired | waitExpired | revokedTimeout | channelFault | channelLocked | forced
deriving DecidableEq, Repr

/-- Pending kinds (Table 34). -/
inductive NoticeKind where
  | admitted | ready | reduce | withdrawn | retired
deriving DecidableEq, Repr

/-- A set of pending kinds: each kind at most once, without order (7.4). -/
structure KindSet where
  admitted  : Bool := false
  ready     : Bool := false
  reduce    : Bool := false
  withdrawn : Bool := false
  retired   : Bool := false
deriving DecidableEq, Repr

/-- System event flags (Table 41). -/
inductive EventFlag where
  | tierChanged | shedBegun | strained | channelFault | channelLocked | portError | safeEntered
deriving DecidableEq, Repr

/-- The result codes of a response frame (Table 47). -/
inductive Result where
  | ok | queued | extended | revoked
  | noRoom | qFull | quota | limit | tableFull
  | stale | notOwner | badState | tooLate
  | range | rights | chUnavail | closed | denied | mode
  | badFrame | unknown
deriving DecidableEq, Repr

/-- What a command answers: a result code and a payload. -/
structure Reply where
  result  : Result
  payload : List Byte := []
deriving DecidableEq, Repr

/-- The kind of a grant; a LEASED grant has a lease length in ms (Table 5). -/
inductive Kind where
  | standing
  | leased (length : Nat)
deriving DecidableEq, Repr

/-- The notice part of a NOTICED record; the deadline is what the slot's notice place holds (Table 12). -/
structure Notice where
  required : Nat
  deadline : Tick
  busy     : Nat
deriving DecidableEq, Repr

/-- The slot state of an occupied slot, with the fields that are present in it (Table 6).
`queued` holds the wait deadline, if any, which is what the slot's wait place holds.
`live` is ACTIVE without a notice part and NOTICED with one; it holds the powered field and, for a LEASED
record, the lease deadline, which is what the slot's lease place holds. -/
inductive Phase where
  | queued (wait : Option Tick)
  | live (powered : Bool) (lease : Option Tick) (notice : Option Notice)
  | retired (reason : Reason)
deriving DecidableEq, Repr

/-- A grant record (Table 5). The handle is the slot and its generation (R2). -/
structure Record where
  owner   : ClientId
  channel : ChannelId
  amount  : Nat
  floor   : Option Nat
  cls     : Fin 4
  kind    : Kind
  tag     : Half
  phase   : Phase
  kinds   : KindSet
deriving DecidableEq, Repr

/-- A slot of the grant table: a generation, and a record unless the slot is FREE (1.1). -/
structure Slot where
  gen    : BitVec 4
  record : Option Record
deriving DecidableEq, Repr

/-- The timers that a channel place can hold (Table 12). -/
inductive ChannelTimer where
  | start | discharge | cooldown | clean
deriving DecidableEq, Repr

/-- The events that the sample at the entry to STARTING can raise (R110). -/
inductive SampledEvent where
  | trip | powerGood
deriving DecidableEq, Repr

/-- A channel's profile (Table 31). -/
structure Profile where
  enable    : Bool
  ceiling   : Nat
  startTime : Nat
  discharge : Nat
  cooldown  : Nat
  lockout   : Nat
  clean     : Nat
deriving DecidableEq, Repr

/-- A channel: the state held by the channel controller (Table 30), its pins, and the sum and the counts that
the grant table keeps for it (Table 8, R10). `en` is ENn as driven, `pg` and `fltN` the levels of PGn and
FLTn_N. `sampled` is the event raised at the entry to STARTING and not yet taken. -/
structure Channel where
  state      : ChannelState
  faultCount : Nat
  cause      : Cause
  timer      : Option (ChannelTimer × Tick)
  profile    : Profile
  sum        : Nat
  live       : Nat
  queued     : Nat
  en         : Bool
  pg         : Bool
  fltN       : Bool
  sampled    : Option SampledEvent
deriving DecidableEq, Repr

/-- A client entry (Table 33), the sums and the slot count that the grant table keeps for the client (Table 8,
R10), and the client's notice queue, head first (R139). -/
structure Client where
  isOpen    : Bool
  quota     : Nat
  limit     : Nat
  best      : Nat
  attention : Bool
  committed : Nat
  held      : Nat
  occupied  : Nat
  notices   : List SlotId
deriving DecidableEq, Repr

/-- The settings of the settings table that are not a channel's (Table 40). -/
structure Settings where
  tierBudget : Vector Nat 4
  budgetCap  : Nat
  reserve0   : Nat
  tierSettle : Nat
  noticeTime : Nat
  busyLimit  : Nat
  eventMask  : BitVec 7
deriving DecidableEq, Repr

/-- Port states (Table 43). -/
inductive PortState where
  | idle | executing | ready
deriving DecidableEq, Repr

/-- A port unit (Table 43). An empty response buffer is the empty list.
While EXECUTING, `handed` is the accepted command until its claim is taken, `reply` what that claim answered
until the response is placed, and `echo` bytes 0 and 1 of its request frame.
`overtaken` says that `handed` is a RENEW or a RESIZE whose record a CLOSE_CLIENT taken first has freed (R36, R76;
log entry 29).
`shifted` and `acked` are the model's own: the bytes the port shifted out in its last transaction, and how many
acknowledge bits it drove in it (log entry 27). -/
structure PortUnit where
  state     : PortState
  buffer    : List Byte
  overrun   : Bool
  rejected  : Nat
  overruns  : Nat
  handed    : Option Instr
  overtaken : Bool
  reply     : Option Reply
  echo      : Byte × Byte
  shifted   : List Byte
  acked     : Nat
deriving DecidableEq, Repr

/-- Why a step stops with a fault: no step does. The TG24 answers every command with a result code and takes
every event, so this type has no constructor. -/
inductive Fault where
deriving DecidableEq, Repr

/-- Why a step has no meaning. -/
inductive Refusal where
  /-- Raised by `exec` for a row whose meaning is not written: no row of this model is left so. Safe. -/
  | notModelled (mnemonic : String)
deriving DecidableEq, Repr

/-- The state of the TG24. -/
structure State where
  /-- The 64 slots of the grant table (1.1). -/
  slots : Vector Slot 64
  /-- The admission list, oldest first (R19). -/
  admission : List SlotId
  /-- The committed total (Table 8). -/
  committed : Nat
  /-- The tick counter (R26). -/
  tick : Tick
  /-- The settle place (Table 12). -/
  settleTimer : Option Tick
  /-- The selected tier (Table 16). -/
  selected : Tier
  /-- The pending tier (Table 16). -/
  pendingTier : Option Tier
  /-- The effective budget (R47). -/
  budget : Nat
  /-- The wait queue, head first (R63). -/
  waitQueue : List SlotId
  /-- The shed state (R81). -/
  shed : ShedState
  /-- The shed list, oldest posting first (R80). -/
  shedList : List SlotId
  /-- The relief total (R79). -/
  relief : Nat
  /-- The channels, with their profiles (Tables 30, 31). -/
  channels : Vector Channel 24
  /-- The client entries (Table 33). -/
  clients : Vector Client 16
  /-- The controller state (R147). -/
  mode : Mode
  /-- The settings that are not a channel's (Table 40). -/
  settings : Settings
  /-- The event flags, bit by bit as Table 55 assigns them. -/
  flags : BitVec 7
  /-- The SAFE_N level held by the controller core (Table 38). -/
  safeHeld : Bool
  /-- SAFE_N was found low at reset release and the safe entry of R152 has not been made yet. -/
  resetSafe : Bool
  /-- The SPI client port (R162). -/
  clientPort : PortUnit
  /-- The I2C management port (R163). -/
  managementPort : PortUnit
  /-- The 7-bit address of the management port, sampled from ADDR at reset (R163). -/
  address : BitVec 7
  /-- The levels of TIER1 and TIER0 as one code (R43). -/
  tierLines : Tier
  /-- The level of the SAFE_N pin (R152). -/
  safePin : Bool
  /-- The level of the ADDR pin (Table 2). -/
  addrPin : Bool
  /-- ATTN_N is asserted (R144). -/
  attn : Bool
  /-- ALERT_N is asserted (R158). -/
  alert : Bool
  /-- The model's own: the response of the command claim taken last, with the port of its command. -/
  response : Option (PortId × Reply)
  /-- The model's own: how many claims have taken an order from `Config.rank` (log entry 10). -/
  fresh : Nat
  /-- The commands and events that are waiting, first in, first out. -/
  pending : List Instr
deriving DecidableEq, Repr

/-! ## Reset values -/

/-- A channel's profile after reset (Table 31). -/
def Profile.reset : Profile :=
  { enable := false, ceiling := 1000, startTime := 20, discharge := 10, cooldown := 1000, lockout := 3,
    clean := 10 }

/-- A channel after reset (R127), with the levels of its two input pins. -/
def Channel.reset (pg fltN : Bool) : Channel :=
  { state := .disabled, faultCount := 0, cause := .none, timer := none, profile := Profile.reset, sum := 0,
    live := 0, queued := 0, en := false, pg := pg, fltN := fltN, sampled := none }

/-- A CLOSED entry: no rights, no records and an empty notice queue (R129). -/
def Client.closed : Client :=
  { isOpen := false, quota := 0, limit := 0, best := 0, attention := false, committed := 0, held := 0,
    occupied := 0, notices := [] }

/-- The settings after reset (Table 40). -/
def Settings.reset : Settings :=
  { tierBudget := Vector.replicate 4 0, budgetCap := 20000, reserve0 := 0, tierSettle := 20, noticeTime := 200,
    busyLimit := 1, eventMask := 0x7F }

/-- A port unit after reset (R171). -/
def PortUnit.reset : PortUnit :=
  { state := .idle, buffer := [], overrun := false, rejected := 0, overruns := 0, handed := none,
    overtaken := false, reply := none, echo := (0, 0), shifted := [], acked := 0 }

/-- The machine right after reset, with nothing waiting (R25, R26, R32, R53, R78, R104, R127, R146, R154, R171).
DESIGN CHOICE, log entry 1: the board holds the input pins at tier code 0, SAFE_N high, ADDR low, every PGn low
and every FLTn_N high. -/
def State.reset : State :=
  { slots := Vector.replicate 64 { gen := 0, record := none }
    admission := []
    committed := 0
    tick := 0
    settleTimer := none
    selected := 0
    pendingTier := none
    budget := 0
    waitQueue := []
    shed := .idle
    shedList := []
    relief := 0
    channels := Vector.replicate 24 (Channel.reset false true)
    clients := Vector.replicate 16 Client.closed
    mode := .config
    settings := Settings.reset
    flags := 0
    safeHeld := true
    resetSafe := false
    clientPort := PortUnit.reset
    managementPort := PortUnit.reset
    address := 0x38
    tierLines := 0
    safePin := true
    addrPin := false
    attn := false
    alert := false
    response := none
    fresh := 0
    pending := [] }

end Sys2Proof.Machine
end

