-- ==== Sys2Proof/Machine/Operands.lean ====
section
/-! DEFINITION. How a meaning reads its operands and the state: slots, channels, clients and ports by number,
handles (R2, R3), the fields of payloads and their ranges (R172), the port, session and handle checks that the
commands share (R4, R131, R132), and the bytes of a response payload. -/

namespace Sys2Proof.Machine

/-! ## Access to the state -/

/-- Slot `i` of the grant table. -/
def State.slot (s : State) (i : SlotId) : Slot := s.slots[i]

/-- Channel `n`. -/
def State.channel (s : State) (n : ChannelId) : Channel := s.channels[n]

/-- The entry of client `c`. -/
def State.client (s : State) (c : ClientId) : Client := s.clients[c]

/-- The port unit `p`. -/
def State.port (s : State) : PortId → PortUnit
  | .client => s.clientPort
  | .management => s.managementPort

/-- Write slot `i`. -/
def State.setSlot (s : State) (i : SlotId) (x : Slot) : State := { s with slots := s.slots.set i x }

/-- Write the record of slot `i`; its generation stays (R5). -/
def State.setRecord (s : State) (i : SlotId) (r : Record) : State :=
  s.setSlot i { gen := (s.slot i).gen, record := some r }

/-- Write channel `n`. -/
def State.setChannel (s : State) (n : ChannelId) (x : Channel) : State :=
  { s with channels := s.channels.set n x }

/-- Write the entry of client `c`. -/
def State.setClient (s : State) (c : ClientId) (x : Client) : State :=
  { s with clients := s.clients.set c x }

/-- Write the port unit `p`. -/
def State.setPort (s : State) (p : PortId) (x : PortUnit) : State :=
  match p with
  | .client => { s with clientPort := x }
  | .management => { s with managementPort := x }

/-! ## Records -/

/-- A record is live while it is ACTIVE or NOTICED (R10). -/
def Record.isLive (r : Record) : Bool :=
  match r.phase with
  | .live _ _ _ => true
  | _ => false

/-- A record is QUEUED. -/
def Record.isQueued (r : Record) : Bool :=
  match r.phase with
  | .queued _ => true
  | _ => false

/-- A record is ACTIVE. -/
def Record.isActive (r : Record) : Bool :=
  match r.phase with
  | .live _ _ none => true
  | _ => false

/-- The notice part, which is present exactly while the record is NOTICED (R9). -/
def Record.notice? (r : Record) : Option Notice :=
  match r.phase with
  | .live _ _ notice => notice
  | _ => none

/-- A record is a tombstone. -/
def Record.isRetired (r : Record) : Bool :=
  match r.phase with
  | .retired _ => true
  | _ => false

/-- The relief of a notice to a record of amount `a`: amount less required amount (R79). -/
def reliefOf (a : Nat) (x : Notice) : Nat := a - x.required

/-- The slots whose records satisfy `f`, in slot order. -/
def slotsWhere (f : Record → Bool) (s : State) : List SlotId :=
  (List.finRange 64).filter fun i => (s.slot i).record.any f

/-- The lowest-numbered FREE slot (R5). -/
def lowestFree (s : State) : Option SlotId :=
  (List.finRange 64).find? fun i => (s.slot i).record.isNone

/-- The number of FREE slots (R10). -/
def freeSlots (s : State) : Nat :=
  (List.finRange 64).countP fun i => (s.slot i).record.isNone

/-- The class of the record in slot `i`; the worst class for a FREE slot. -/
def classOf (s : State) (i : SlotId) : Nat :=
  match (s.slot i).record with
  | some r => r.cls.val
  | none => 3

/-! ## Time -/

/-- The deadline of a timer of length `len` set now, modulo 2^32 (2.2, R28). -/
def deadlineIn (len : Nat) (s : State) : Tick := s.tick + BitVec.ofNat 32 len

/-- The due test of R27. -/
def dueAt (now deadline : Tick) : Bool := decide ((now - deadline).toNat < 2 ^ 31)

/-! ## Handles (R2, R3) -/

/-- The handle of slot `i` at generation `gen`. -/
def handleOf (i : SlotId) (gen : BitVec 4) : Nat := gen.toNat * 64 + i.val

/-- The slot that a handle names: the handle modulo 64. -/
def handleSlot (handle : Half) : SlotId := Fin.ofNat 64 handle.toNat

/-- The generation that a handle names: the handle divided by 64. -/
def handleGen (handle : Half) : Nat := handle.toNat / 64

/-- A handle field is 0 to 1023. -/
def handleOk (handle : Half) : Bool := decide (handle.toNat ≤ 1023)

/-- The slot and the record that a handle names; none when the handle is stale (R3). -/
def named (handle : Half) (s : State) : Option (SlotId × Record) :=
  let i := handleSlot handle
  if (s.slot i).gen.toNat = handleGen handle then (s.slot i).record.map fun r => (i, r) else none

/-- The acting client and the handle of a RENEW or a RESIZE, the commands of R36 and R76. -/
def changeOf : Instr → Option (ClientId × Half)
  | .renew _ c h => some (c, h)
  | .resize _ c h _ => some (c, h)
  | _ => none

/-- The command `i` of port `p` is in flight, and is a RENEW or a RESIZE whose record a CLOSE_CLIENT of its client,
taken first, has freed (R36, R76). -/
def wasOvertaken (p : PortId) (i : Instr) (s : State) : Bool :=
  decide ((s.port p).handed = some i) && (s.port p).overtaken

/-! ## Check orders -/

/-- A check order: the first check that fails gives its result. -/
def firstFailure : List (Bool × Result) → Option Result
  | [] => none
  | (true, _) :: rest => firstFailure rest
  | (false, e) :: _ => some e

/-- R131 for a client command: denied on the client port to client 0. -/
def clientMaySend (p : PortId) (c : ClientId) : Bool :=
  match p with
  | .client => decide (c ≠ 0)
  | .management => true

/-- R131 for a supervisor command: taken on the management port from client 0. -/
def supervisorMaySend (p : PortId) (c : ClientId) : Bool :=
  match p with
  | .client => false
  | .management => decide (c = 0)

/-- Controller state RUN or HOLD. -/
def Mode.serves : Mode → Bool
  | .run => true
  | .hold => true
  | _ => false

/-- Controller state CONFIG, RUN or HOLD. -/
def Mode.notSafe : Mode → Bool
  | .safe => false
  | _ => true

/-- The port and session tests of a client command (R131, R132), and its controller state test. -/
def clientChecks (p : PortId) (c : ClientId) (modeOk : Bool) (s : State) : List (Bool × Result) :=
  [(clientMaySend p c, .denied), ((s.client c).isOpen, .closed), (modeOk, .mode)]

/-- The check order of R4 up to ownership. `mayName` is the ownership step for the record found. -/
def namedRecord (pre : List (Bool × Result)) (fieldsOk : Bool) (handle : Half) (mayName : Record → Bool)
    (s : State) : Except Result (SlotId × Record) :=
  match firstFailure (pre ++ [(handleOk handle && fieldsOk, .range)]) with
  | some e => .error e
  | none =>
    match named handle s with
    | none => .error .stale
    | some (i, r) => if mayName r then .ok (i, r) else .error .notOwner

/-! ## Fields and ranges (R172) -/

/-- The channel that a byte names. -/
def channelOf (b : Byte) : ChannelId := Fin.ofNat 24 b.toNat

/-- A channel field is 0 to 23. -/
def channelOk (b : Byte) : Bool := decide (b.toNat ≤ 23)

/-- A value lies in a range; ranges are inclusive (4.1). -/
def within (lo hi v : Nat) : Bool := decide (lo ≤ v) && decide (v ≤ hi)

/-- What a REQUEST asks for, its fields in range (Table 19). -/
structure Ask where
  channel : ChannelId
  amount  : Nat
  cls     : Fin 4
  kind    : Kind
  floor   : Option Nat
  wait    : Bool
  timeout : Option Nat
  tag     : Half
deriving DecidableEq, Repr

/-- The fields of a REQUEST payload (Table 49), or none where one is outside its range (R55, R172).
An absent floor or timeout, and the lease length of a STANDING request, are not checked. -/
def askOf (channel : Byte) (amount : Half) (cls flags : Byte) (lease : Quad) (floor timeout tag : Half) :
    Option Ask :=
  let leased := flags.getLsbD 0
  let hasFloor := flags.getLsbD 2
  let hasTimeout := flags.getLsbD 3
  if channelOk channel && within 1 2500 amount.toNat && decide (cls.toNat ≤ 3) && decide (flags.toNat < 16)
      && (!leased || within 100 600000 lease.toNat)
      && (!hasFloor || within 1 (amount.toNat - 1) floor.toNat)
      && (!hasTimeout || within 10 60000 timeout.toNat) then
    some { channel := channelOf channel, amount := amount.toNat, cls := Fin.ofNat 4 cls.toNat,
           kind := if leased then .leased lease.toNat else .standing,
           floor := if hasFloor then some floor.toNat else none,
           wait := flags.getLsbD 1,
           timeout := if hasTimeout then some timeout.toNat else none,
           tag := tag }
  else none

/-! ## Bytes of a response payload (9.2, 9.6) -/

/-- A one-byte field. -/
def byte1 (n : Nat) : List Byte := [BitVec.ofNat 8 n]

/-- A two-byte field, most significant byte first. -/
def byte2 (n : Nat) : List Byte := [BitVec.ofNat 8 (n / 256), BitVec.ofNat 8 n]

/-- A four-byte field, most significant byte first. -/
def byte4 (n : Nat) : List Byte := byte2 (n / 65536) ++ byte2 n

/-- A flag bit: `2 ^ k` when it is set. -/
def bitAt (k : Nat) (b : Bool) : Nat := if b then 2 ^ k else 0

end Sys2Proof.Machine
end

