-- ==== Sys2Proof/Machine/Flags.lean ====
section
/-! DEFINITION. The system event flags (8.6), the pending-kind sets (7.4) and the two attention lines
(R144, R145, R158). -/

namespace Sys2Proof.Machine

/-! ## Event flags -/

/-- The bit of an event flag (Table 55). -/
def EventFlag.bit : EventFlag → Nat
  | .tierChanged => 0
  | .shedBegun => 1
  | .strained => 2
  | .channelFault => 3
  | .channelLocked => 4
  | .portError => 5
  | .safeEntered => 6

/-- The set that holds one flag. -/
def EventFlag.mask (f : EventFlag) : BitVec 7 := BitVec.ofNat 7 (2 ^ f.bit)

/-- Raise a flag; a flag already set stays set (R157). -/
def raise (f : EventFlag) (s : State) : State := { s with flags := s.flags ||| f.mask }

/-- A flag is set. -/
def State.flagSet (s : State) (f : EventFlag) : Bool := s.flags.getLsbD f.bit

/-! ## Pending kinds -/

/-- No kind is pending. -/
def KindSet.isEmpty (k : KindSet) : Bool :=
  !(k.admitted || k.ready || k.reduce || k.withdrawn || k.retired)

/-- Merge a posted kind into a set (R137). -/
def KindSet.merge (k : KindSet) : NoticeKind → KindSet
  | .admitted => { k with admitted := true }
  | .ready => { k with admitted := false, ready := true }
  | .reduce => { k with withdrawn := false, reduce := true }
  | .withdrawn => if k.reduce then { k with reduce := false } else { k with withdrawn := true }
  | .retired => { retired := true }

/-- The set as Table 50, byte 33, codes it. -/
def KindSet.code (k : KindSet) : Nat :=
  bitAt 0 k.admitted + bitAt 1 k.ready + bitAt 2 k.reduce + bitAt 3 k.withdrawn + bitAt 4 k.retired

/-! ## Lines -/

/-- The condition of ATTN_N (R144): an OPEN client among clients 1 to 15 with attention enabled has a notice
waiting. -/
def attnCondition (s : State) : Bool :=
  (List.finRange 16).any fun c =>
    c != 0 && (s.client c).isOpen && (s.client c).attention && !(s.client c).notices.isEmpty

/-- The condition of ALERT_N (R158): a set flag is in EVENT_MASK, or client 0 has a notice waiting (R145). -/
def alertCondition (s : State) : Bool :=
  (s.flags &&& s.settings.eventMask) != 0 || !(s.client 0).notices.isEmpty

/-- Bring ATTN_N and ALERT_N to their conditions. -/
def driveLines (s : State) : State := { s with attn := attnCondition s, alert := alertCondition s }

end Sys2Proof.Machine
end

