-- ==== Sys2Proof/Machine/Ops.lean ====
section
/-! DEFINITION. The changes that the commands and events are made of: postings, admission, freeing, retirement,
changes of amount, channel transitions, the shed evaluation, the queue walk, the hand-offs of a claim, faults,
bulk clearing, and what a claim is. -/

namespace Sys2Proof.Machine

/-! ## Orders that the manual leaves open -/

/-- Insert `x` before the first element of higher rank. -/
def insertRanked {α : Type} (rank : α → Nat) (x : α) : List α → List α
  | [] => [x]
  | y :: ys => if rank x ≤ rank y then x :: y :: ys else y :: insertRanked rank x ys

/-- The elements by rising rank. -/
def orderBy {α : Type} (rank : α → Nat) : List α → List α
  | [] => []
  | x :: xs => insertRanked rank x (orderBy rank xs)

/-- The slots of one claim in the order that `Config.rank` gives it (log entry 9). -/
def openOrder (slots : List SlotId) (s : State) : List SlotId :=
  orderBy (fun i => Config.rank s.fresh i.val) slots

/-- The next claim takes another order. -/
def nextOrder (s : State) : State := { s with fresh := s.fresh + 1 }

/-! ## The notice unit -/

/-- A list without one slot; the others keep their order. -/
def without (i : SlotId) (l : List SlotId) : List SlotId := l.filter fun j => j != i

/-- Give the record `r` of slot `i` the pending set `k` (R138, R139): the record joins its owner's notice queue
at the newest end when its set becomes non-empty, and leaves it when its set becomes empty. -/
def setKinds (i : SlotId) (r : Record) (k : KindSet) (s : State) : State :=
  let o := s.client r.owner
  let q := if k.isEmpty then without i o.notices
           else if r.kinds.isEmpty then o.notices ++ [i]
           else o.notices
  (s.setRecord i { r with kinds := k }).setClient r.owner { o with notices := q }

/-- Post a kind to the record of slot `i` (R137). -/
def post (i : SlotId) (kind : NoticeKind) (s : State) : State :=
  match (s.slot i).record with
  | some r => setKinds i r (r.kinds.merge kind) s
  | none => s

/-! ## Channel transitions -/

/-- Enter a channel state: ENn is high exactly in STARTING and ON (R106), and the channel place holds the timer
of the new state (R107). -/
def Channel.enter (st : ChannelState) (timer : Option (ChannelTimer × Tick)) (x : Channel) : Channel :=
  { x with state := st, timer := timer, en := decide (st = .starting ∨ st = .on) }

/-- The event that a sample of the lines raises (R110). -/
def Channel.sample (x : Channel) : Option SampledEvent :=
  if !x.fltN then some .trip else if x.pg then some .powerGood else none

/-- Enter STARTING: the start timer is set and the lines are sampled (R110, R111). -/
def Channel.beginStart (now : Tick) (x : Channel) : Channel :=
  { x.enter .starting (some (.start, now + BitVec.ofNat 32 x.profile.startTime)) with sampled := x.sample }

/-- Stop a STARTING or ON channel: STOPPING, or OFF where CH_DISCHARGE is 0 (R116, R128). -/
def Channel.stop (now : Tick) (x : Channel) : Channel :=
  match x.state with
  | .starting | .on =>
    if x.profile.discharge = 0 then x.enter .off none
    else x.enter .stopping (some (.discharge, now + BitVec.ofNat 32 x.profile.discharge))
  | _ => x

/-- The first-grant report (R111). -/
def Channel.firstGrant (now : Tick) (x : Channel) : Channel :=
  match x.state with
  | .off => x.beginStart now
  | _ => x

/-! ## Records entering and leaving the live states -/

/-- A channel gains a live grant of this amount, with the first-grant report where it is the first (R20). -/
def Channel.gain (now : Tick) (amount : Nat) (x : Channel) : Channel :=
  let y := { x with sum := x.sum + amount, live := x.live + 1 }
  if x.live = 0 then y.firstGrant now else y

/-- The lease deadline of a record admitted now (R33). -/
def leaseFrom (k : Kind) (s : State) : Option Tick :=
  match k with
  | .leased len => some (deadlineIn len s)
  | .standing => none

/-- Make the record `r`, which is in no sum, the live record of slot `i`: steps 1, 2, 3, 5 and 6 of R61, with
the first-grant report of R20. -/
def enterLive (i : SlotId) (r : Record) (s : State) : State :=
  let x := s.channel r.channel
  let o := s.client r.owner
  let s := s.setRecord i { r with phase := .live (decide (x.state = .on)) (leaseFrom r.kind s) none }
  let s := { s with admission := s.admission ++ [i], committed := s.committed + r.amount }
  let s := s.setClient r.owner { o with committed := o.committed + r.amount }
  s.setChannel r.channel (x.gain s.tick r.amount)

/-- Take the record `r` of slot `i` out of the live collections and sums (R11, R13, steps 2 to 4). -/
def leaveLive (i : SlotId) (r : Record) (s : State) : State :=
  let x := s.channel r.channel
  let o := s.client r.owner
  let freed := match r.notice? with
    | some n => reliefOf r.amount n
    | none => 0
  let s := { s with admission := without i s.admission, committed := s.committed - r.amount,
                    shedList := without i s.shedList, relief := s.relief - freed }
  let s := s.setChannel r.channel { x with sum := x.sum - r.amount, live := x.live - 1 }
  s.setClient r.owner { o with committed := o.committed - r.amount, held := o.held - r.amount }

/-- Take the record `r` of slot `i` out of the wait queue and the sums (R11, R13, steps 1 and 4). -/
def leaveQueued (i : SlotId) (r : Record) (s : State) : State :=
  let x := s.channel r.channel
  let o := s.client r.owner
  let s := { s with waitQueue := without i s.waitQueue }
  let s := s.setChannel r.channel { x with queued := x.queued - 1 }
  s.setClient r.owner { o with held := o.held - r.amount }

/-- Take the record `r` of slot `i` out of every collection and sum but its owner's slot count and notice
queue. A tombstone is in none. -/
def detach (i : SlotId) (r : Record) (s : State) : State :=
  match r.phase with
  | .queued _ => leaveQueued i r s
  | .live _ _ _ => leaveLive i r s
  | .retired _ => s

/-- The last-grant report (R116), made when the record `r` was live and its channel has no live grant left. -/
def lastGrant (r : Record) (s : State) : State :=
  let x := s.channel r.channel
  if r.isLive && decide (x.live = 0) then s.setChannel r.channel (x.stop s.tick) else s

/-- Free the record `r` of slot `i` (R11, R15): it leaves every collection and sum, its pending kinds are
discarded, and the slot is FREE with its generation advanced (R12). -/
def freeRecord (i : SlotId) (r : Record) (s : State) : State :=
  let s := detach i r s
  let o := s.client r.owner
  let s := s.setClient r.owner { o with occupied := o.occupied - 1, notices := without i o.notices }
  s.setSlot i { gen := (s.slot i).gen + 1, record := none }

/-- Retire the record `r` of slot `i` with a reason (R13). -/
def retireRecord (i : SlotId) (r : Record) (reason : Reason) (s : State) : State :=
  post i .retired ((detach i r s).setRecord i { r with phase := .retired reason })

/-- Change the amount of the live record `r` of slot `i` to `a`, with the sums (R18); the floor is dropped when
it is no longer below the amount (R7). -/
def changeAmount (i : SlotId) (r : Record) (a : Nat) (s : State) : State :=
  let x := s.channel r.channel
  let o := s.client r.owner
  let s := s.setRecord i { r with amount := a, floor := r.floor.filter fun f => decide (f < a) }
  let s := { s with committed := s.committed - r.amount + a }
  let s := s.setChannel r.channel { x with sum := x.sum - r.amount + a }
  s.setClient r.owner { o with committed := o.committed - r.amount + a, held := o.held - r.amount + a }

/-! ## Admission (4.2, 4.4) -/

/-- Admit the QUEUED record of slot `i` in a walk (R61), with its posting (R62). -/
def admitQueued (i : SlotId) (s : State) : State :=
  match (s.slot i).record with
  | some r =>
    let x := s.channel r.channel
    let s := { s with waitQueue := without i s.waitQueue }
    let s := s.setChannel r.channel { x with queued := x.queued - 1 }
    post i (if x.state = .on then .ready else .admitted) (enterLive i r s)
  | none => s

/-- The headroom for a class (R48). -/
def headroom (cls : Fin 4) (s : State) : Nat :=
  if cls = 0 then s.budget - s.committed else s.budget - s.settings.reserve0 - s.committed

/-- The three actions of a walk at a record (R69). -/
inductive Visit where
  | passOver | stop | take
deriving DecidableEq, Repr

/-- The tests of R69 at the record of slot `i`, in their order. -/
def visit (i : SlotId) (s : State) : Visit :=
  match (s.slot i).record with
  | some r =>
    let x := s.channel r.channel
    if !r.isQueued then .passOver
    else if x.state = .faulted then .passOver
    else if x.profile.ceiling < x.sum + r.amount then .passOver
    else if headroom r.cls s < r.amount then .stop
    else .take
  | none => .passOver

/-- Visit the records of a list in its order (R69). -/
def walkOver : List SlotId → State → State
  | [], s => s
  | i :: rest, s =>
    match visit i s with
    | .passOver => walkOver rest s
    | .stop => s
    | .take => walkOver rest (admitQueued i s)

/-- A triggered walk: it runs in RUN with the shed state IDLE, and otherwise does nothing (R68). -/
def walk (s : State) : State :=
  if s.mode = .run ∧ s.shed = .idle then walkOver s.waitQueue s else s

/-! ## The shed engine (5.2) -/

/-- Committed total less relief total (R79). -/
def projected (s : State) : Nat := s.committed - s.relief

/-- Post REDUCE with a required amount to the ACTIVE record of slot `i` (R84). -/
def postReduce (i : SlotId) (required : Nat) (s : State) : State :=
  match (s.slot i).record with
  | some r =>
    match r.phase with
    | .live powered lease none =>
      let n : Notice := { required := required, deadline := deadlineIn s.settings.noticeTime s, busy := 0 }
      let s := s.setRecord i { r with phase := .live powered lease (some n) }
      post i .reduce { s with shedList := s.shedList ++ [i], relief := s.relief + reliefOf r.amount n }
    | _ => s
  | none => s

/-- The required amount that R83 asks of a candidate: the amount less the need where its floor allows, else 0. -/
def requiredOf (r : Record) (need : Nat) : Nat :=
  match r.floor with
  | some f => if need ≤ r.amount ∧ f ≤ r.amount - need then r.amount - need else 0
  | none => 0

/-- Choose victims from the candidates while projected exceeds the effective budget (R83). -/
def chooseVictims : List SlotId → State → State
  | [], s => s
  | i :: rest, s =>
    if projected s ≤ s.budget then s
    else
      match (s.slot i).record with
      | some r => chooseVictims rest (postReduce i (requiredOf r (projected s - s.budget)) s)
      | none => chooseVictims rest s

/-- The ACTIVE records of one class, newest admission first. -/
def activeOfClass (cls : Fin 4) (s : State) : List SlotId :=
  s.admission.reverse.filter fun i =>
    (s.slot i).record.any fun r => r.isActive && decide (r.cls = cls)

/-- The candidates of R83 in the order they are taken: class 3 first, then 2, then 1. -/
def candidates (s : State) : List SlotId :=
  activeOfClass 3 s ++ activeOfClass 2 s ++ activeOfClass 1 s

/-- Take the notice from the NOTICED record of slot `i`: its state is ACTIVE again, it leaves the shed list, and
its relief leaves the relief total. -/
def endNotice (i : SlotId) (s : State) : State :=
  match (s.slot i).record with
  | some r =>
    match r.phase with
    | .live powered lease (some n) =>
      let s := s.setRecord i { r with phase := .live powered lease none }
      { s with shedList := without i s.shedList, relief := s.relief - reliefOf r.amount n }
    | _ => s
  | none => s

/-- Withdraw the notice of slot `i` (R86). -/
def withdrawNotice (i : SlotId) (s : State) : State := post i .withdrawn (endNotice i s)

/-- Visit a list of NOTICED records and withdraw each notice whose relief still fits (R85). -/
def withdrawFrom : List SlotId → State → State
  | [], s => s
  | i :: rest, s =>
    match (s.slot i).record with
    | some r =>
      match r.notice? with
      | some n =>
        if projected s + reliefOf r.amount n ≤ s.budget then withdrawFrom rest (withdrawNotice i s)
        else withdrawFrom rest s
      | none => withdrawFrom rest s
    | none => withdrawFrom rest s

/-- The shed state that R87 sets from what an evaluation finds. -/
def shedFound (s : State) : ShedState :=
  if s.shedList ≠ [] then .shedding else if s.committed ≤ s.budget then .idle else .strained

/-- The postings and withdrawals of an evaluation (R83, R85). -/
def weigh (s : State) : State :=
  if s.budget < projected s then chooseVictims (candidates s) s else withdrawFrom s.shedList.reverse s

/-- An evaluation, but for the walk it may trigger (R82 to R87). -/
def evaluate (s : State) : State :=
  let began := s.shed
  let t := weigh s
  let found := shedFound t
  let t := if began = .idle ∧ s.shedList.length < t.shedList.length then raise .shedBegun t else t
  let t := if found = .strained ∧ began ≠ .strained then raise .strained t else t
  { t with shed := found }

/-! ## The hand-offs of a claim (R20) -/

/-- What the record changes of a claim call for: a NOTICED record was resolved, the committed total fell, a
QUEUED record left the wait queue other than by admission. -/
structure Change where
  resolved : Bool := false
  fell     : Bool := false
  left     : Bool := false
deriving DecidableEq, Repr

/-- What the end of a record calls for. -/
def Record.ending (r : Record) : Change :=
  match r.phase with
  | .queued _ => { left := true }
  | .live _ _ n => { fell := true, resolved := n.isSome }
  | .retired _ => {}

/-- What the ends of several records call for together. -/
def endings (rs : List Record) : Change :=
  { resolved := rs.any fun r => r.ending.resolved
    fell := rs.any fun r => r.ending.fell
    left := rs.any fun r => r.ending.left }

/-- A shed evaluation where one is requested, and then a single walk where the claim calls for one or the
evaluation has brought the shed state to IDLE (R20, R87). -/
def handOn (evaluation walkTrigger : Bool) (s : State) : State :=
  let t := if evaluation then evaluate s else s
  if walkTrigger || (decide (s.shed ≠ .idle) && decide (t.shed = .idle)) then walk t else t

/-- The hand-offs that a change of records calls for (R20, steps 3 and 4). -/
def handOnChange (k : Change) (s : State) : State :=
  handOn (k.resolved || (k.fell && decide (s.shed = .strained))) (k.fell || k.left) s

/-- Act on the records of several slots, one after another: `f` acts on one of them. -/
def overRecords (f : SlotId → Record → State → State) : List SlotId → State → State
  | [], s => s
  | i :: rest, s =>
    match (s.slot i).record with
    | some r => overRecords f rest (f i r s)
    | none => overRecords f rest s

/-- The records of several slots. -/
def recordsOf (slots : List SlotId) (s : State) : List Record := slots.filterMap fun i => (s.slot i).record

/-- Free the record `r` of slot `i`, with the last-grant report. -/
def freeReporting (i : SlotId) (r : Record) (s : State) : State := lastGrant r (freeRecord i r s)

/-- Retire the record `r` of slot `i`, with the last-grant report. -/
def retireReporting (reason : Reason) (i : SlotId) (r : Record) (s : State) : State :=
  lastGrant r (retireRecord i r reason s)

/-! ## The effective budget (3.3) -/

/-- The lesser of the selected tier's table entry and the cap (R47). -/
def budgetNow (s : State) : Nat := min s.settings.tierBudget[s.selected] s.settings.budgetCap

/-- Recompute the effective budget and hand a change on (R47, R49). -/
def rebudget (s : State) : State :=
  let b := budgetNow s
  if b = s.budget then s else handOn true (decide (s.budget < b)) { s with budget := b }

/-! ## Faults (R119 to R121) -/

/-- The reason with which a fault retires a record: a live grant CHANNEL_FAULT, a QUEUED record of a locked
channel CHANNEL_LOCKED. -/
def faultReason (r : Record) : Reason := if r.isLive then .channelFault else .channelLocked

/-- A fault of channel `n` (R120, R121). -/
def fault (n : ChannelId) (cause : Cause) (s : State) : State :=
  let x := s.channel n
  let count := min 7 (x.faultCount + 1)
  let locks := decide (x.profile.lockout ≤ count)
  let ends := slotsWhere (fun r => decide (r.channel = n) && (r.isLive || (locks && r.isQueued))) s
  let x := { x with faultCount := count, cause := cause }
  let x := if locks then x.enter .locked none
           else x.enter .faulted (some (.cooldown, deadlineIn x.profile.cooldown s))
  let t := raise .channelFault (s.setChannel n x)
  let t := if locks then raise .channelLocked t else t
  let t := overRecords (fun i r => retireRecord i r (faultReason r)) (openOrder ends s) t
  handOnChange (endings (recordsOf ends s)) (nextOrder t)

/-- Mark the live record `r` of slot `i` powered and post READY (R8, R113). -/
def markPowered (i : SlotId) (r : Record) (s : State) : State :=
  match r.phase with
  | .live _ lease notice => post i .ready (s.setRecord i { r with phase := .live true lease notice })
  | _ => s

/-- The power-good event of channel `n` (R113); it makes no change unless the channel is STARTING. -/
def comeUp (n : ChannelId) (s : State) : State :=
  let x := s.channel n
  if x.state = .starting then
    let grants := slotsWhere (fun r => decide (r.channel = n) && r.isLive) s
    let s := s.setChannel n (x.enter .on (some (.clean, deadlineIn (x.profile.clean * 1000) s)))
    nextOrder (overRecords markPowered (openOrder grants s) s)
  else s

/-- A fault event of channel `n`: it is taken in the states that `takes` names and makes no change in others. -/
def faultIn (takes : ChannelState → Bool) (n : ChannelId) (cause : Cause) (s : State) : State :=
  if takes (s.channel n).state then fault n cause s else s

/-- STARTING or ON, the states in which a trip is taken (R119). -/
def ChannelState.drives : ChannelState → Bool
  | .starting => true
  | .on => true
  | _ => false

/-! ## Bulk clearing (R151) -/

/-- A slot at the bulk freeing of R25. -/
def Slot.cleared (x : Slot) : Slot :=
  match x.record with
  | some _ => { gen := x.gen + 1, record := none }
  | none => x

/-- A channel at the bulk clearing: it holds no records (R25), and stops if it was STARTING or ON (R128). -/
def Channel.cleared (now : Tick) (x : Channel) : Channel :=
  { x.stop now with sum := 0, live := 0, queued := 0 }

/-- The bulk clearing of safe entry and RESTART, steps 1 to 5 of R151. -/
def bulkClear (s : State) : State :=
  { s with
    slots := s.slots.map Slot.cleared
    admission := []
    committed := 0
    waitQueue := []
    shed := .idle
    shedList := []
    relief := 0
    clients := Vector.replicate 16 Client.closed
    channels := s.channels.map (Channel.cleared s.tick) }

/-- Safe entry (R152): the bulk clearing, controller state SAFE, SAFE_ENTERED raised. -/
def safeEntry (s : State) : State := raise .safeEntered { bulkClear s with mode := .safe }

/-! ## Claims (R1) -/

/-- The safe entry that is due before the first claim after a reset that found SAFE_N low (R152). -/
def resetEntry (s : State) : State := if s.resetSafe then safeEntry { s with resetSafe := false } else s

/-- What a meaning answers. -/
abbrev Out := Host.Outcome State Fault Refusal

/-- An event taken as one claim at the grant table (R1); the lines are brought to their conditions within it
(R144, R158). -/
def claim (f : State → State) (s : State) : Out := .next (driveLines (f (resetEntry s)))

/-- An event taken as one claim where it arises. Elsewhere there is no event to take, or it has been withdrawn, and
no claim is made (R29, R107). -/
def claimWhen (arises : Bool) (f : State → State) (s : State) : Out := if arises then claim f s else .next s

/-- Record the response of a command's claim; where the port holds this very command as accepted, its claim is
now taken and the response waits to be placed (R166). -/
def respond (p : PortId) (i : Instr) (a : Reply) (s : State) : State :=
  let u := s.port p
  let s := { s with response := some (p, a) }
  if u.handed = some i then
    s.setPort p { u with handed := none, overtaken := false, reply := some a }
  else s

/-- The command `i` of port `p` taken as one claim (R1, R166). -/
def command (p : PortId) (i : Instr) (f : State → State × Reply) (s : State) : Out :=
  let t := f (resetEntry s)
  .next (driveLines (respond p i t.2 t.1))

/-- A command refused: no effect, no payload (R60, R172). -/
def refuse (e : Result) (s : State) : State × Reply := (s, { result := e })

/-- A command taken, with its response payload. -/
def taken (payload : List Byte) (s : State) : State × Reply := (s, { result := .ok, payload := payload })

/-- A command whose check order is `checks` and whose action is `f`. -/
def checked (checks : State → List (Bool × Result)) (f : State → State × Reply) (s : State) : State × Reply :=
  match firstFailure (checks s) with
  | some e => refuse e s
  | none => f s

end Sys2Proof.Machine
end

