-- ==== Sys2Proof/Machine/Lines.lean ====
section
/-! DEFINITION. The events on the input pins: the TIER lines (3.2), PGn and FLTn_N (6.3), SAFE_N (8.3), and the
hardware resets (8.4). -/

namespace Sys2Proof.Machine

/-! ## TIER lines -/

/-- A line change (R43, R44): a value other than the selected tier becomes the pending tier and sets the settle
timer; a return to the selected tier removes the pending tier and cancels the timer. -/
def takeLineChange (value : Tier) (s : State) : State :=
  let s := { s with tierLines := value }
  if value = s.selected then { s with pendingTier := none, settleTimer := none }
  else { s with pendingTier := some value, settleTimer := some (deadlineIn s.settings.tierSettle s) }

/-- LINE_CHANGE (R44): taken by the budget unit. -/
def execLineChange (value : Tier) (s : State) : Out := .next (takeLineChange value s)

/-! ## Switch lines -/

/-- The level of PGn. -/
def setPg (n : ChannelId) (level : Bool) (s : State) : State := s.setChannel n { s.channel n with pg := level }

/-- The level of FLTn_N. -/
def setFlt (n : ChannelId) (level : Bool) (s : State) : State := s.setChannel n { s.channel n with fltN := level }

/-- A change of a line of channel `n`, whose level `level` writes: a claim at the grant table in the states that
`takes` names, and elsewhere ignored, which changes the level alone and makes no claim (R107, R110). -/
def lineEvent (takes : ChannelState → Bool) (level f : State → State) (n : ChannelId) (s : State) : Out :=
  if takes (s.channel n).state then claim (fun s => f (level s)) s else .next (level s)

/-- POWER_GOOD (R110, R113): PGn rises. -/
def execPowerGood (n : ChannelId) (s : State) : Out :=
  lineEvent (fun st => decide (st = .starting)) (setPg n true) (comeUp n) n s

/-- POWER_LOSS (R110, R119): PGn falls; a fault in ON. -/
def execPowerLoss (n : ChannelId) (s : State) : Out :=
  lineEvent (fun st => decide (st = .on)) (setPg n false) (faultIn (fun st => decide (st = .on)) n .powerLost) n s

/-- TRIP (R110, R119): FLTn_N falls; a fault in STARTING and ON. -/
def execTrip (n : ChannelId) (s : State) : Out :=
  lineEvent ChannelState.drives (setFlt n false) (faultIn ChannelState.drives n .trip) n s

/-- FLT_RISE (R110): FLTn_N rises and nothing else changes. -/
def execFltRise (n : ChannelId) (s : State) : Out := .next (setFlt n true s)

/-- The event that the sample at the entry to STARTING raised, taken as a claim of its own (R110); it is no
longer waiting. -/
def takeSampled (n : ChannelId) (s : State) : State :=
  let x := s.channel n
  let t := s.setChannel n { x with sampled := none }
  match x.sampled with
  | some .trip => faultIn ChannelState.drives n .trip t
  | some .powerGood => comeUp n t
  | none => s

/-- SAMPLED_LINE_EVENT (R110). -/
def execSampledLineEvent (n : ChannelId) (s : State) : Out :=
  claimWhen (s.channel n).sampled.isSome (takeSampled n) s

/-! ## SAFE_N -/

/-- SAFE_N falls (R152): safe entry in CONFIG, RUN and HOLD; no change in SAFE but the level. -/
def takeSafeFall (s : State) : State :=
  let s := { s with safeHeld := false, safePin := false }
  if s.mode = .safe then s else safeEntry s

/-- SAFE_N_FALL (R152). -/
def execSafeNFall (s : State) : Out := claim takeSafeFall s

/-- SAFE_N_RISE (R152): the held level changes and nothing else changes. -/
def execSafeNRise (s : State) : Out := .next { s with safeHeld := true, safePin := true }

/-! ## Resets -/

/-- The part at the release of reset with these pin levels (R25, R26, R32, R53, R78, R104, R127, R146, R154,
R171): every block at its reset value, the TIER lines selected, SAFE_N and ADDR sampled. The sender's queue and
the model's own order counter are no part of the TG24 and stay. -/
def atRelease (pins : Pins) (s : State) : State :=
  { State.reset with
    selected := pins.tier
    tierLines := pins.tier
    safeHeld := pins.safeN
    safePin := pins.safeN
    resetSafe := !pins.safeN
    addrPin := pins.addr
    address := if pins.addr then 0x39 else 0x38
    channels := Vector.ofFn fun n : Fin 24 => Channel.reset (pins.pg.getLsbD n.val) (pins.fltN.getLsbD n.val)
    fresh := s.fresh
    pending := s.pending }

/-- POWER_ON (R154). -/
def execPowerOn (pins : Pins) (s : State) : Out := .next (atRelease pins s)

/-- PIN_RESET (R154): the same effect as power-on. -/
def execPinReset (pins : Pins) (s : State) : Out := .next (atRelease pins s)

/-- RESET_SAFE_ENTRY (R152): where reset release found SAFE_N low, safe entry from CONFIG in the first claim
after release. Every claim makes it first while it is due, so this claim makes it and nothing more. -/
def execResetSafeEntry (s : State) : Out := claimWhen s.resetSafe id s

end Sys2Proof.Machine
end

