-- ==== Sys2Proof/Machine/Views.lean ====
section
/-! DEFINITION. The codes and the byte layouts of the responses (Tables 47, 50 to 54). An absent field is
reported as 0 with its presence bit clear (R172). -/

namespace Sys2Proof.Machine

/-- Table 47. -/
def Result.code : Result → Byte
  | .ok => 0x00
  | .queued => 0x01
  | .extended => 0x02
  | .revoked => 0x03
  | .noRoom => 0x10
  | .qFull => 0x11
  | .quota => 0x12
  | .limit => 0x13
  | .tableFull => 0x14
  | .stale => 0x20
  | .notOwner => 0x21
  | .badState => 0x22
  | .tooLate => 0x23
  | .range => 0x30
  | .rights => 0x31
  | .chUnavail => 0x32
  | .closed => 0x33
  | .denied => 0x34
  | .mode => 0x35
  | .badFrame => 0x40
  | .unknown => 0x41

/-- The state byte of a record (Table 50, byte 2). -/
def Phase.code : Phase → Nat
  | .queued _ => 1
  | .live _ _ none => 2
  | .live _ _ (some _) => 3
  | .retired _ => 4

/-- The retire reason (Table 50, byte 32). -/
def Reason.code : Reason → Nat
  | .leaseExpired => 1
  | .waitExpired => 2
  | .revokedTimeout => 3
  | .channelFault => 4
  | .channelLocked => 5
  | .forced => 6

/-- The controller state (Table 53, byte 0). -/
def Mode.code : Mode → Nat
  | .config => 0
  | .run => 1
  | .hold => 2
  | .safe => 3

/-- The shed state (Table 53, byte 1). -/
def ShedState.code : ShedState → Nat
  | .idle => 0
  | .shedding => 1
  | .strained => 2

/-- The channel state (Table 54, byte 1). -/
def ChannelState.code : ChannelState → Nat
  | .disabled => 0
  | .off => 1
  | .starting => 2
  | .on => 3
  | .stopping => 4
  | .faulted => 5
  | .locked => 6

/-- The last fault cause (Table 54, byte 8). -/
def Cause.code : Cause → Nat
  | .none => 0
  | .trip => 1
  | .powerLost => 2
  | .startTimeout => 3

/-- The timer in the channel place (Table 54, byte 9). -/
def ChannelTimer.code : ChannelTimer → Nat
  | .start => 1
  | .discharge => 2
  | .cooldown => 3
  | .clean => 4

/-- The deadline of a record's lease place, if armed. -/
def Record.lease? (r : Record) : Option Tick :=
  match r.phase with
  | .live _ lease _ => lease
  | _ => none

/-- The deadline of a record's wait place, if armed. -/
def Record.wait? (r : Record) : Option Tick :=
  match r.phase with
  | .queued wait => wait
  | _ => none

/-- The powered field; no for a record that is not live (R8). -/
def Record.powered (r : Record) : Bool :=
  match r.phase with
  | .live powered _ _ => powered
  | _ => false

/-- The retire reason, in RETIRED only. -/
def Record.reason? (r : Record) : Option Reason :=
  match r.phase with
  | .retired reason => some reason
  | _ => none

/-- The lease length, for a LEASED record. -/
def Record.leaseLength? (r : Record) : Option Nat :=
  match r.kind with
  | .leased len => some len
  | .standing => none

/-- A tick value in a view; 0 when absent. -/
def tickBytes (t : Option Tick) : List Byte := byte4 ((t.map BitVec.toNat).getD 0)

/-- The remaining allowance of a notice (R93); Nat subtraction gives 0 at and above the limit. -/
def allowance (busy : Nat) (s : State) : Nat := s.settings.busyLimit - busy

/-- The grant view of QUERY (Table 50, R174). -/
def grantView (i : SlotId) (r : Record) (s : State) : List Byte :=
  byte2 (handleOf i (s.slot i).gen) ++ byte1 r.phase.code ++ byte1 r.owner.val ++ byte1 r.channel.val
    ++ byte2 r.amount ++ byte1 r.cls.val
    ++ byte1 (bitAt 0 r.leaseLength?.isSome + bitAt 1 r.floor.isSome + bitAt 2 r.lease?.isSome
        + bitAt 3 r.wait?.isSome + bitAt 4 r.isLive + bitAt 5 r.powered + bitAt 6 r.notice?.isSome
        + bitAt 7 r.reason?.isSome)
    ++ byte2 (r.floor.getD 0) ++ byte4 (r.leaseLength?.getD 0) ++ tickBytes r.lease? ++ tickBytes r.wait?
    ++ byte2 r.tag.toNat ++ byte2 ((r.notice?.map Notice.required).getD 0)
    ++ tickBytes (r.notice?.map Notice.deadline) ++ byte1 ((r.notice?.map Notice.busy).getD 0)
    ++ byte1 ((r.reason?.map Reason.code).getD 0) ++ byte1 r.kinds.code

/-- The notice that NEXT_NOTICE delivers (Table 51, R140, R175). -/
def noticeView (i : SlotId) (r : Record) (s : State) : List Byte :=
  byte2 (handleOf i (s.slot i).gen) ++ byte2 r.tag.toNat ++ byte1 r.kinds.code ++ byte1 r.phase.code
    ++ byte2 r.amount
    ++ byte1 (bitAt 0 r.powered + bitAt 1 r.notice?.isSome + bitAt 2 r.reason?.isSome)
    ++ byte2 ((r.notice?.map Notice.required).getD 0)
    ++ byte1 ((r.notice?.map fun n => allowance n.busy s).getD 0)
    ++ byte1 ((r.reason?.map Reason.code).getD 0)

/-- The client view (Table 52, R143). -/
def clientView (c : ClientId) (s : State) : List Byte :=
  let o := s.client c
  byte1 c.val ++ byte1 (bitAt 0 o.isOpen) ++ byte2 o.quota ++ byte1 o.limit ++ byte1 o.best
    ++ byte1 (bitAt 0 o.attention) ++ byte2 o.committed ++ byte2 o.held ++ byte1 o.occupied
    ++ byte1 o.notices.length

/-- The status view (Table 53, R160, R170). -/
def statusView (s : State) : List Byte :=
  byte1 s.mode.code ++ byte1 s.shed.code
    ++ byte1 (s.selected.val + 4 * (s.pendingTier.map Fin.val).getD 0 + bitAt 4 s.pendingTier.isSome
        + bitAt 5 (decide (s.tierLines.val % 2 = 1)) + bitAt 6 (decide (2 ≤ s.tierLines.val))
        + bitAt 7 s.safePin)
    ++ byte2 s.budget ++ byte4 s.committed ++ byte4 s.relief ++ byte2 s.settings.reserve0
    ++ byte1 s.waitQueue.length ++ byte1 (freeSlots s) ++ byte1 s.flags.toNat ++ byte4 s.tick.toNat
    ++ byte1 s.clientPort.rejected ++ byte1 s.clientPort.overruns
    ++ byte1 s.managementPort.rejected ++ byte1 s.managementPort.overruns

/-- The number of tombstones that name a channel. -/
def tombstones (n : ChannelId) (s : State) : Nat :=
  (slotsWhere (fun r => decide (r.channel = n) && r.isRetired) s).length

/-- The channel view (Table 54, R126). -/
def channelView (n : ChannelId) (s : State) : List Byte :=
  let x := s.channel n
  byte1 n.val ++ byte1 x.state.code ++ byte2 x.sum ++ byte1 x.live ++ byte1 x.queued
    ++ byte1 (tombstones n s) ++ byte1 x.faultCount ++ byte1 x.cause.code
    ++ byte1 ((x.timer.map fun t => t.1.code).getD 0) ++ tickBytes (x.timer.map Prod.snd)
    ++ byte1 (bitAt 0 x.en + bitAt 1 x.pg + bitAt 2 x.fltN)

end Sys2Proof.Machine
end

