-- ==== Sys2Proof/Machine/Grants.lean ====
section
/-! DEFINITION. The commands that change grants: REQUEST, RELEASE, RESIZE, RENEW, ANSWER and FORCE_RETIRE. -/

namespace Sys2Proof.Machine

/-! ## REQUEST (4.1) -/

/-- The channel test of R57. -/
def channelAvailable (wait : Bool) : ChannelState → Bool
  | .disabled => false
  | .locked => false
  | .faulted => wait
  | _ => true

/-- Checks 4 to 9 of R56. -/
def requestChecks (c : ClientId) (a : Ask) (s : State) : List (Bool × Result) :=
  let x := s.channel a.channel
  let o := s.client c
  [(decide (o.best ≤ a.cls.val), .rights),
   (channelAvailable a.wait x.state, .chUnavail),
   (decide (a.amount ≤ x.profile.ceiling), .range),
   (decide (o.held + a.amount ≤ o.quota), .quota),
   (decide (o.occupied < o.limit), .limit),
   ((lowestFree s).isSome, .tableFull)]

/-- The wait queue holds a record of the class or a better one (R58, R74). -/
def queueBlocks (cls : Fin 4) (s : State) : Bool := s.waitQueue.any fun i => decide (classOf s i ≤ cls.val)

/-- The conditions of immediate admission (R58). -/
def fitsNow (a : Ask) (s : State) : Bool :=
  let x := s.channel a.channel
  decide (s.mode = .run) && decide (s.shed = .idle) && !queueBlocks a.cls s && decide (x.state ≠ .faulted)
    && decide (x.sum + a.amount ≤ x.profile.ceiling) && decide (a.amount ≤ headroom a.cls s)

/-- The record of a REQUEST, in a given phase (R6, R55). -/
def recordOf (c : ClientId) (a : Ask) (phase : Phase) : Record :=
  { owner := c, channel := a.channel, amount := a.amount, floor := a.floor, cls := a.cls, kind := a.kind,
    tag := a.tag, phase := phase, kinds := {} }

/-- A new record's share of its client's held power and slots (R61, R64, step 3). -/
def chargeClient (c : ClientId) (amount : Nat) (s : State) : State :=
  let o := s.client c
  s.setClient c { o with held := o.held + amount, occupied := o.occupied + 1 }

/-- Place a slot in the wait queue after every record of its class and of better classes, and before every
record of worse classes (R64). -/
def enqueue (i : SlotId) (cls : Fin 4) (s : State) : List SlotId :=
  (s.waitQueue.filter fun j => decide (classOf s j ≤ cls.val)) ++ [i]
    ++ s.waitQueue.filter fun j => decide (cls.val < classOf s j)

/-- Admit a request at once in slot `i` (R61). -/
def admitRequest (i : SlotId) (c : ClientId) (a : Ask) (s : State) : State :=
  enterLive i (recordOf c a (.live false none none)) (chargeClient c a.amount s)

/-- Queue a request in slot `i` (R64). -/
def queueRequest (i : SlotId) (c : ClientId) (a : Ask) (s : State) : State :=
  let wait := a.timeout.map fun len => deadlineIn len s
  let x := s.channel a.channel
  let s := { s with waitQueue := enqueue i a.cls s }
  let s := (chargeClient c a.amount s).setChannel a.channel { x with queued := x.queued + 1 }
  s.setRecord i (recordOf c a (.queued wait))

/-- The response to a request answered OK (R60, Table 48). -/
def admittedReply (i : SlotId) (s : State) : Reply :=
  match (s.slot i).record with
  | some r =>
    { result := .ok
      payload := byte2 (handleOf i (s.slot i).gen) ++ byte1 (bitAt 0 r.powered + bitAt 1 r.lease?.isSome)
        ++ tickBytes r.lease? }
  | none => { result := .ok }

/-- The response to a request answered QUEUED (R60, Table 48). -/
def queuedReply (i : SlotId) (s : State) : Reply :=
  match (s.slot i).record with
  | some r =>
    { result := .queued
      payload := byte2 (handleOf i (s.slot i).gen) ++ byte1 (bitAt 2 r.wait?.isSome) ++ tickBytes r.wait? }
  | none => { result := .queued }

/-- The decision on a request that has passed the checks, with the lowest FREE slot (R58, R59). -/
def decideRequest (i : SlotId) (c : ClientId) (a : Ask) (s : State) : State × Reply :=
  if fitsNow a s then
    let t := admitRequest i c a s
    (t, admittedReply i t)
  else if !a.wait then refuse .noRoom s
  else if 16 ≤ s.waitQueue.length then refuse .qFull s
  else
    let t := queueRequest i c a s
    (t, queuedReply i t)

/-- REQUEST after its payload has been read (R56). -/
def requestAct (p : PortId) (c : ClientId) (ask : Option Ask) (s : State) : State × Reply :=
  match firstFailure (clientChecks p c s.mode.serves s), ask with
  | some e, _ => refuse e s
  | none, none => refuse .range s
  | none, some a =>
    match firstFailure (requestChecks c a s), lowestFree s with
    | some e, _ => refuse e s
    | none, none => refuse .tableFull s
    | none, some i => decideRequest i c a s

/-- REQUEST (R55 to R60). -/
def execRequest (p : PortId) (c : ClientId) (channel : Byte) (amount : Half) (cls flags : Byte) (lease : Quad)
    (floor timeout tag : Half) (s : State) : Out :=
  command p (.request p c channel amount cls flags lease floor timeout tag)
    (requestAct p c (askOf channel amount cls flags lease floor timeout tag)) s

/-! ## The commands that name a handle -/

/-- The checks that RELEASE, RESIZE, RENEW and ANSWER share, up to ownership (R4): RUN or HOLD, and every
client, client 0 included, is held to its own records. -/
def ownRecord (p : PortId) (c : ClientId) (handle : Half) (fieldsOk : Bool) (s : State) :
    Except Result (SlotId × Record) :=
  namedRecord (clientChecks p c s.mode.serves s) fieldsOk handle (fun r => decide (r.owner = c)) s

/-- The checks of a RENEW or a RESIZE, the command `i` (R35, R72). One that is in flight when a CLOSE_CLIENT frees its
record has passed the session test on its way to the grant table (R166), and meets the stale test there: STALE (R36,
R76), and not the CLOSED that R136 gives every client command of the closing client. One that arrives after the close is
CLOSED (R132). DESIGN CHOICE between R36 with R76 and R136, log entry 29. -/
def changeRecord (i : Instr) (p : PortId) (c : ClientId) (handle : Half) (fieldsOk : Bool) (s : State) :
    Except Result (SlotId × Record) :=
  if wasOvertaken p i s && clientMaySend p c && s.mode.serves then
    namedRecord [] fieldsOk handle (fun r => decide (r.owner = c)) s
  else ownRecord p c handle fieldsOk s

/-- The action of RELEASE (R21). -/
def releaseAct (p : PortId) (c : ClientId) (handle : Half) (s : State) : State × Reply :=
  match ownRecord p c handle true s with
  | .error e => refuse e s
  | .ok (i, r) =>
    if r.isRetired then refuse .badState s
    else taken [] (handOnChange r.ending (freeReporting i r s))

/-- RELEASE (R21). -/
def execRelease (p : PortId) (c : ClientId) (handle : Half) (s : State) : Out :=
  command p (.release p c handle) (releaseAct p c handle) s

/-- The tests of an upward RESIZE of the record `r` to `a`, in their order (R74). -/
def growChecks (r : Record) (a : Nat) (s : State) : List (Bool × Result) :=
  let x := s.channel r.channel
  let o := s.client r.owner
  let delta := a - r.amount
  [(decide (a ≤ x.profile.ceiling), .range),
   (decide (o.held + delta ≤ o.quota), .quota),
   (decide (s.mode = .run) && decide (s.shed = .idle) && !queueBlocks r.cls s
      && decide (x.sum + delta ≤ x.profile.ceiling) && decide (delta ≤ headroom r.cls s), .noRoom)]

/-- An upward RESIZE that has passed its tests (R75): the amount, and the newest end of the admission list. -/
def grow (i : SlotId) (r : Record) (a : Nat) (s : State) : State :=
  let t := changeAmount i r a s
  { t with admission := without i t.admission ++ [i] }

/-- The action of RESIZE (R72 to R76). -/
def resizeAct (p : PortId) (c : ClientId) (handle amount : Half) (s : State) : State × Reply :=
  let a := amount.toNat
  match changeRecord (.resize p c handle amount) p c handle (within 1 2500 a) s with
  | .error e => refuse e s
  | .ok (i, r) =>
    if !r.isActive then refuse .badState s
    else if a = r.amount then taken (byte2 a) s
    else if a < r.amount then taken (byte2 a) (handOnChange { fell := true } (changeAmount i r a s))
    else checked (growChecks r a) (fun s => taken (byte2 a) (grow i r a s)) s

/-- RESIZE (R72). -/
def execResize (p : PortId) (c : ClientId) (handle amount : Half) (s : State) : Out :=
  command p (.resize p c handle amount) (resizeAct p c handle amount) s

/-- The action of RENEW (R35, R36). -/
def renewAct (p : PortId) (c : ClientId) (handle : Half) (s : State) : State × Reply :=
  match changeRecord (.renew p c handle) p c handle true s with
  | .error e => refuse e s
  | .ok (i, r) =>
    match r.phase, r.kind with
    | .live powered _ notice, .leased len =>
      let d := deadlineIn len s
      taken (byte4 d.toNat) (s.setRecord i { r with phase := .live powered (some d) notice })
    | _, _ => refuse .badState s

/-- RENEW (R35). -/
def execRenew (p : PortId) (c : ClientId) (handle : Half) (s : State) : Out :=
  command p (.renew p c handle) (renewAct p c handle) s

/-! ## ANSWER (5.4) -/

/-- The three answers. -/
inductive AnswerKind where
  | ack | nak | busy
deriving DecidableEq, Repr

/-- ACK with a required amount above 0 (R90): the notice ends, an unread REDUCE is removed, and the amount
becomes the required amount. -/
def acceptNotice (i : SlotId) (required : Nat) (s : State) : State :=
  let t := endNotice i s
  match (t.slot i).record with
  | some r =>
    let t := setKinds i r { r.kinds with reduce := false } t
    changeAmount i { r with kinds := { r.kinds with reduce := false } } required t
  | none => t

/-- NAK (R91): the record is freed, whatever its required amount. -/
def revoke (i : SlotId) (r : Record) (s : State) : State × Reply :=
  (handOnChange r.ending (freeReporting i r s), { result := .revoked })

/-- BUSY within the busy limit (R92): the busy count rises and the notice timer is set again. -/
def extend (i : SlotId) (r : Record) (n : Notice) (s : State) : State × Reply :=
  match r.phase with
  | .live powered lease _ =>
    let d := deadlineIn s.settings.noticeTime s
    let n' : Notice := { n with busy := n.busy + 1, deadline := d }
    (s.setRecord i { r with phase := .live powered lease (some n') },
      { result := .extended, payload := byte4 d.toNat ++ byte1 (allowance (n.busy + 1) s) })
  | _ => refuse .badState s

/-- An answer to the NOTICED record `r` of slot `i` (R90 to R92). -/
def answerNotice (k : AnswerKind) (i : SlotId) (r : Record) (n : Notice) (s : State) : State × Reply :=
  match k with
  | .ack =>
    if n.required = 0 then taken (byte2 0) (handOnChange r.ending (freeReporting i r s))
    else
      taken (byte2 n.required)
        (handOnChange { resolved := true, fell := true } (acceptNotice i n.required s))
  | .nak => revoke i r s
  | .busy => if n.busy < s.settings.busyLimit then extend i r n s else revoke i r s

/-- The action of ANSWER (R89); `inRange` says that the answer is ACK, NAK or BUSY. -/
def answerAct (k : AnswerKind) (inRange : Bool) (p : PortId) (c : ClientId) (handle : Half) (s : State) :
    State × Reply :=
  match ownRecord p c handle inRange s with
  | .error e => refuse e s
  | .ok (i, r) =>
    match r.phase with
    | .live _ _ (some n) => answerNotice k i r n s
    | .retired .revokedTimeout => refuse .tooLate s
    | _ => refuse .badState s

/-- ANSWER with ACK (R90). -/
def execAnswerAck (p : PortId) (c : ClientId) (handle : Half) (s : State) : Out :=
  command p (.answerAck p c handle) (answerAct .ack true p c handle) s

/-- ANSWER with NAK (R91). -/
def execAnswerNak (p : PortId) (c : ClientId) (handle : Half) (s : State) : Out :=
  command p (.answerNak p c handle) (answerAct .nak true p c handle) s

/-- ANSWER with BUSY (R92). An answer byte that is none of ACK, NAK and BUSY is out of range (R89; log entry 5). -/
def execAnswerBusy (p : PortId) (c : ClientId) (fields : AnswerFields) (s : State) : Out :=
  command p (.answerBusy p c fields) (answerAct .busy (decide (fields.answer = 2)) p c fields.handle) s

/-! ## FORCE_RETIRE (1.7.4) -/

/-- The action of FORCE_RETIRE (R24): R4 without the ownership step. -/
def forceRetireAct (p : PortId) (c : ClientId) (handle : Half) (s : State) : State × Reply :=
  match namedRecord [(supervisorMaySend p c, .denied), (s.mode.serves, .mode)] true handle (fun _ => true) s with
  | .error e => refuse e s
  | .ok (i, r) =>
    if r.isRetired then refuse .badState s
    else taken [] (handOnChange r.ending (retireReporting .forced i r s))

/-- FORCE_RETIRE (R24). -/
def execForceRetire (p : PortId) (c : ClientId) (handle : Half) (s : State) : Out :=
  command p (.forceRetire p c handle) (forceRetireAct p c handle) s

end Sys2Proof.Machine
end

