-- ==== Sys2Proof/Machine/PortUnits.lean ====
section
/-! DEFINITION. The port units (chapter 9): write and read transactions, refused direction bytes, and the
placing of a response. -/

namespace Sys2Proof.Machine

/-- A count that stays at 255 once it reaches it (Table 43). -/
def saturate (n : Nat) : Nat := if n < 255 then n + 1 else n

/-- The port that takes a transaction: the client port on SPI; on I2C the management port, when the host sent
its address (R163). -/
def portOf (bus : Bus) (s : State) : Option PortId :=
  match bus with
  | .spi => some .client
  | .i2c a => if a = s.address then some .management else none

/-- The response frame of a result (Table 45). -/
def responseFrame (a : Reply) (echo : Byte × Byte) (overrun : Bool) : List Byte :=
  let body := a.result.code :: echo.1 :: echo.2
    :: BitVec.ofNat 8 (bitAt 7 overrun + a.payload.length) :: a.payload
  body ++ [crc body]

/-- Bytes 0 and 1 of a request frame as received; a byte missing from a short frame is 0x00 (R164). -/
def echoOf (bytes : List Byte) : Byte × Byte := (byteAt bytes 0, byteAt bytes 1)

/-- A frame refused under R164: the port is READY with a BADFRAME or UNKNOWN response, the rejected count rises
and PORT_ERROR is raised. -/
def refuseFrame (p : PortId) (e : Result) (bytes : List Byte) (s : State) : State :=
  let u := s.port p
  raise .portError (s.setPort p
    { u with state := .ready, buffer := responseFrame { result := e } (echoOf bytes) false, overrun := false,
             rejected := saturate u.rejected, handed := none, overtaken := false, reply := none })

/-- A frame that passes R164: the port is EXECUTING, an unread response is discarded, and its command `i` waits for
its claim (R161, R166). -/
def acceptFrame (p : PortId) (i : Instr) (bytes : List Byte) (s : State) : State :=
  let u := s.port p
  s.setPort p { u with state := .executing, buffer := [], overrun := false, handed := some i,
                       overtaken := false, reply := none, echo := echoOf bytes }

/-- A write dropped while EXECUTING (R168). -/
def overrunWrite (p : PortId) (s : State) : State :=
  let u := s.port p
  raise .portError (s.setPort p { u with overrun := true, overruns := saturate u.overruns })

/-- The end of a write transaction that carries the frame `bytes` (R161). -/
def writeFrame (p : PortId) (bytes : List Byte) (s : State) : State :=
  if (s.port p).state = .executing then overrunWrite p s
  else
    match checkFrame p bytes with
    | .badFrame => refuseFrame p .badFrame bytes s
    | .unknown => refuseFrame p .unknown bytes s
    | .handsOn i => acceptFrame p i bytes s

/-- What a port sends before the first byte that follows the direction byte or the address: on SPI MISO carries 0x00
while the direction byte is shifted (R162). -/
def leadIn : Bus → List Byte
  | .spi => [0]
  | .i2c _ => []

/-- The acknowledge bits of a transaction with this many bytes written: on I2C the port acknowledges its address in
both directions and every byte written to it (R163); SPI has none. -/
def acksOf (written : Nat) : Bus → Nat
  | .spi => 0
  | .i2c _ => 1 + written

/-- MISO during the bytes of a write or of a refused transaction: 0x00 for every byte (R162); the I2C port sends no
byte in a write. -/
def writeEcho (count : Nat) : Bus → List Byte
  | .spi => List.replicate count 0
  | .i2c _ => []

/-- Show what the port sent in a transaction: the bytes `out` after the lead-in, and its acknowledge bits
(log entry 27). -/
def signal (p : PortId) (bus : Bus) (written : Nat) (out : List Byte) (s : State) : State :=
  s.setPort p { s.port p with shifted := leadIn bus ++ out, acked := acksOf written bus }

/-- WRITE_TRANSACTION (R161): a transaction without a byte is not a frame and changes nothing. -/
def execWriteTransaction (bus : Bus) (bytes : List Byte) (s : State) : Out :=
  match portOf bus s with
  | none => .next s
  | some p =>
    let send := signal p bus bytes.length (writeEcho bytes.length bus)
    if bytes.isEmpty then .next (send s) else .next (driveLines (send (writeFrame p bytes s)))

/-- The bytes that a read of `count` bytes returns by the port state at its start (R169): NORESPONSE, NOTREADY, or the
response frame from its first byte and then 0x00. -/
def readBytes (u : PortUnit) (count : Nat) : List Byte :=
  match u.state with
  | .idle => List.replicate count 0xFE
  | .executing => List.replicate count 0xFF
  | .ready => (u.buffer ++ List.replicate count 0).take count

/-- A response is consumed once its first byte has been shifted out (R169). -/
def PortUnit.afterRead (count : Nat) (u : PortUnit) : PortUnit :=
  if u.state = .ready ∧ count ≠ 0 then { u with state := .idle, buffer := [] } else u

/-- READ_TRANSACTION (R169). -/
def execReadTransaction (bus : Bus) (count : Nat) (s : State) : Out :=
  match portOf bus s with
  | none => .next s
  | some p =>
    let u := s.port p
    .next (signal p bus 0 (readBytes u count) (s.setPort p (u.afterRead count)))

/-- DIRECTION_BYTE_REFUSED (R162): ignored, counted as rejected, PORT_ERROR raised; the port state is unchanged.
A direction byte 0x01 or 0x02 is not refused, and this event does not arise with it (log entry 20). -/
def execDirectionByteRefused (direction : Byte) (count : Nat) (s : State) : Out :=
  if direction = 0x01 ∨ direction = 0x02 then .next s
  else
    let u := s.clientPort
    .next (driveLines (signal .client .spi 0 (writeEcho count .spi)
      (raise .portError (s.setPort .client { u with rejected := saturate u.rejected }))))

/-- A transaction arrives on the wires: its row joins the commands and events that are waiting. One that ends before a
whole direction byte presents nothing (R162). -/
def present (x : Transfer) (s : State) : State := { s with pending := s.pending ++ x.row.toList }

/-- RESPONSE_PLACED (R167): the response of the running command is written into the buffer with the overrun mark
as it stands, the port is READY, and the mark returns to clear. While the command's claim has not been taken
there is no response to place (log entry 6). -/
def execResponsePlaced (p : PortId) (s : State) : Out :=
  let u := s.port p
  match u.state, u.handed, u.reply with
  | .executing, none, some a =>
    .next (s.setPort p
      { u with state := .ready, buffer := responseFrame a u.echo u.overrun, overrun := false, reply := none })
  | _, _, _ => .next s

end Sys2Proof.Machine
end

