-- ==== Sys2Proof/Machine/Reads.lean ====
section
/-! DEFINITION. The commands that return views: QUERY, LIST, CLIENT_STATUS, READ_STATUS, READ_CHANNEL,
READ_SETTING, and NEXT_NOTICE, which delivers. -/

namespace Sys2Proof.Machine

/-- The action of QUERY (R22): client 0 passes the ownership check for any record. -/
def queryAct (p : PortId) (c : ClientId) (handle : Half) (s : State) : State × Reply :=
  match namedRecord (clientChecks p c s.mode.notSafe s) true handle
      (fun r => decide (c = 0) || decide (r.owner = c)) s with
  | .error e => refuse e s
  | .ok (i, r) => taken (grantView i r s) s

/-- QUERY (R22). -/
def execQuery (p : PortId) (c : ClientId) (handle : Half) (s : State) : Out :=
  command p (.query p c handle) (queryAct p c handle) s

/-- The fields of a LIST payload are in range (R23, R172). -/
def listFieldsOk (filters client channel first : Byte) : Bool :=
  decide (filters.toNat < 4) && (!filters.getLsbD 0 || decide (client.toNat ≤ 15))
    && (!filters.getLsbD 1 || channelOk channel) && decide (first.toNat ≤ 63)

/-- A record passes the filters of a LIST (R23). -/
def listSelects (c : ClientId) (filters client channel : Byte) (r : Record) : Bool :=
  (if filters.getLsbD 0 then decide (r.owner.val = client.toNat) else decide (c = 0) || decide (r.owner = c))
    && (!filters.getLsbD 1 || decide (r.channel.val = channel.toNat))

/-- The matching slots of a LIST, in ascending order (R23). -/
def listMatches (c : ClientId) (filters client channel first : Byte) (s : State) : List SlotId :=
  (slotsWhere (listSelects c filters client channel) s).filter fun i => decide (first.toNat ≤ i.val)

/-- The action of LIST (R23). -/
def listAct (p : PortId) (c : ClientId) (filters client channel first : Byte) (s : State) : State × Reply :=
  checked
    (fun s => clientChecks p c s.mode.notSafe s ++
      [(listFieldsOk filters client channel first, .range),
       (decide (c = 0) || !filters.getLsbD 0 || decide (client.toNat = c.val), .notOwner)])
    (fun s =>
      let found := listMatches c filters client channel first s
      taken (byte1 found.length ++ (found.take 16).flatMap fun i => byte2 (handleOf i (s.slot i).gen)) s) s

/-- LIST (R23). -/
def execList (p : PortId) (c : ClientId) (filters client channel first : Byte) (s : State) : Out :=
  command p (.list p c filters client channel first) (listAct p c filters client channel first) s

/-- Deliver the record `r` at the head of its owner's notice queue (R141): its pending set is emptied, and a
delivered tombstone is reaped (R15). -/
def deliver (i : SlotId) (r : Record) (s : State) : State :=
  if r.kinds.retired then freeRecord i r s else setKinds i r {} s

/-- The action of NEXT_NOTICE (R140). -/
def nextNoticeAct (p : PortId) (c : ClientId) (s : State) : State × Reply :=
  checked (clientChecks p c s.mode.notSafe)
    (fun s =>
      match (s.client c).notices with
      | [] => taken [] s
      | i :: _ =>
        match (s.slot i).record with
        | some r => taken (noticeView i r s) (deliver i r s)
        | none => taken [] s) s

/-- NEXT_NOTICE (R140). -/
def execNextNotice (p : PortId) (c : ClientId) (s : State) : Out :=
  command p (.nextNotice p c) (nextNoticeAct p c) s

/-- The action of CLIENT_STATUS (R143). -/
def clientStatusAct (p : PortId) (c : ClientId) (target : Option Byte) (s : State) : State × Reply :=
  let t := (target.map BitVec.toNat).getD c.val
  checked
    (fun s => clientChecks p c s.mode.notSafe s ++
      [(decide (t ≤ 15), .range), (decide (c = 0) || decide (t = c.val), .notOwner)])
    (fun s => taken (clientView (Fin.ofNat 16 t) s) s) s

/-- CLIENT_STATUS (R143). -/
def execClientStatus (p : PortId) (c : ClientId) (target : Option Byte) (s : State) : Out :=
  command p (.clientStatus p c target) (clientStatusAct p c target) s

/-- READ_STATUS (R160), taken in every controller state. -/
def readStatusAct (p : PortId) (c : ClientId) (s : State) : State × Reply :=
  checked (fun _ => [(supervisorMaySend p c, .denied)]) (fun s => taken (statusView s) s) s

/-- READ_STATUS (R160). -/
def execReadStatus (p : PortId) (c : ClientId) (s : State) : Out :=
  command p (.readStatus p c) (readStatusAct p c) s

/-- READ_CHANNEL (R126), taken in every controller state. -/
def readChannelAct (p : PortId) (c : ClientId) (channel : Byte) (s : State) : State × Reply :=
  checked (fun _ => [(supervisorMaySend p c, .denied), (channelOk channel, .range)])
    (fun s => taken (channelView (channelOf channel) s) s) s

/-- READ_CHANNEL (R126). -/
def execReadChannel (p : PortId) (c : ClientId) (channel : Byte) (s : State) : Out :=
  command p (.readChannel p c channel) (readChannelAct p c channel) s

end Sys2Proof.Machine
end

