-- ==== Sys2Proof/Machine/SettingsTable.lean ====
section
/-! DEFINITION. The settings table (8.5): keys, ranges, reads and writes, with the effect of each write. -/

namespace Sys2Proof.Machine

/-- The keys of a channel's profile (Table 31). -/
inductive ChannelKey where
  | enable | ceiling | startTime | discharge | cooldown | lockout | clean
deriving DecidableEq, Repr

/-- The keys of the settings table (Table 40). -/
inductive SettingKey where
  | tierBudget | budgetCap | reserve0 | tierSettle | noticeTime | busyLimit | eventMask
  | channel (k : ChannelKey)
deriving DecidableEq, Repr

/-- The key that a key byte names (Table 55). -/
def keyOf (key : Byte) : Option SettingKey :=
  match key.toNat with
  | 0x01 => some .tierBudget
  | 0x02 => some .budgetCap
  | 0x03 => some .reserve0
  | 0x04 => some .tierSettle
  | 0x05 => some .noticeTime
  | 0x06 => some .busyLimit
  | 0x07 => some .eventMask
  | 0x10 => some (.channel .enable)
  | 0x11 => some (.channel .ceiling)
  | 0x12 => some (.channel .startTime)
  | 0x13 => some (.channel .discharge)
  | 0x14 => some (.channel .cooldown)
  | 0x15 => some (.channel .lockout)
  | 0x16 => some (.channel .clean)
  | _ => none

/-- The indexes of a key (R155). -/
def indexOk (k : SettingKey) (index : Byte) : Bool :=
  match k with
  | .tierBudget => decide (index.toNat ≤ 3)
  | .channel _ => channelOk index
  | _ => decide (index.toNat = 0)

/-- The range of a channel key (Table 31; CH_ENABLE as R177 codes it). -/
def channelValueOk (k : ChannelKey) (v : Nat) : Bool :=
  match k with
  | .enable => within 0 1 v
  | .ceiling => within 1 2500 v
  | .startTime => within 1 255 v
  | .discharge => within 0 255 v
  | .cooldown => within 10 10000 v
  | .lockout => within 1 7 v
  | .clean => within 1 255 v

/-- The range of a key (Table 40; EVENT_MASK as R177 codes it). -/
def valueOk (k : SettingKey) (v : Nat) : Bool :=
  match k with
  | .tierBudget => within 0 20000 v
  | .budgetCap => within 0 20000 v
  | .reserve0 => within 0 20000 v
  | .tierSettle => within 1 255 v
  | .noticeTime => within 5 5000 v
  | .busyLimit => within 0 3 v
  | .eventMask => within 0 0x7F v
  | .channel k => channelValueOk k v

/-- The tier that an index names. -/
def tierOf (index : Byte) : Tier := Fin.ofNat 4 index.toNat

/-- A key of a profile. -/
def Profile.get (k : ChannelKey) (x : Profile) : Nat :=
  match k with
  | .enable => if x.enable then 1 else 0
  | .ceiling => x.ceiling
  | .startTime => x.startTime
  | .discharge => x.discharge
  | .cooldown => x.cooldown
  | .lockout => x.lockout
  | .clean => x.clean

/-- A profile with one key written. -/
def Profile.put (k : ChannelKey) (v : Nat) (x : Profile) : Profile :=
  match k with
  | .enable => { x with enable := decide (v ≠ 0) }
  | .ceiling => { x with ceiling := v }
  | .startTime => { x with startTime := v }
  | .discharge => { x with discharge := v }
  | .cooldown => { x with cooldown := v }
  | .lockout => { x with lockout := v }
  | .clean => { x with clean := v }

/-- The value of a setting (R155). -/
def readKey (k : SettingKey) (index : Byte) (s : State) : Nat :=
  match k with
  | .tierBudget => s.settings.tierBudget[tierOf index]
  | .budgetCap => s.settings.budgetCap
  | .reserve0 => s.settings.reserve0
  | .tierSettle => s.settings.tierSettle
  | .noticeTime => s.settings.noticeTime
  | .busyLimit => s.settings.busyLimit
  | .eventMask => s.settings.eventMask.toNat
  | .channel k => (s.channel (channelOf index)).profile.get k

/-- The effect of an accepted write of CH_ENABLE on the channel (R109). -/
def Channel.enableWritten (yes : Bool) (x : Channel) : Channel :=
  match x.state, yes with
  | .disabled, true => x.enter .off none
  | .off, false => { x.enter .disabled none with faultCount := 0, cause := .none }
  | .locked, false => { x.enter .disabled none with faultCount := 0, cause := .none }
  | _, _ => x

/-- An accepted write of a channel key (R109): only CH_ENABLE acts on the channel state. -/
def writeChannelKey (k : ChannelKey) (n : ChannelId) (v : Nat) (s : State) : State :=
  let x := s.channel n
  let x := { x with profile := x.profile.put k v }
  s.setChannel n (if k = .enable then x.enableWritten (decide (v ≠ 0)) else x)

/-- An accepted write, with its effect (R46, R47, R51, R93, R109, R158). -/
def writeKey (k : SettingKey) (index : Byte) (v : Nat) (s : State) : State :=
  let g := s.settings
  match k with
  | .tierBudget =>
    let t := { s with settings := { g with tierBudget := g.tierBudget.set (tierOf index) v } }
    if tierOf index = s.selected then rebudget t else t
  | .budgetCap => rebudget { s with settings := { g with budgetCap := v } }
  | .reserve0 => handOn false (decide (v < g.reserve0)) { s with settings := { g with reserve0 := v } }
  | .tierSettle => { s with settings := { g with tierSettle := v } }
  | .noticeTime => { s with settings := { g with noticeTime := v } }
  | .busyLimit => { s with settings := { g with busyLimit := v } }
  | .eventMask => { s with settings := { g with eventMask := BitVec.ofNat 7 v } }
  | .channel k => writeChannelKey k (channelOf index) v s

/-- The channel of a profile write is empty (R108, step 3): DISABLED, OFF or LOCKED, and no slot that is not
FREE names it. -/
def channelEmpty (n : ChannelId) (s : State) : Bool :=
  (match (s.channel n).state with
    | .disabled | .off | .locked => true
    | _ => false)
  && (slotsWhere (fun r => decide (r.channel = n)) s).isEmpty

/-- The controller states in which a key is writable (R156, step 3). -/
def writableIn (k : SettingKey) (m : Mode) : Bool :=
  match k with
  | .eventMask => true
  | _ => m.notSafe

/-- Step 5 of R156. -/
def targetEmpty (k : SettingKey) (index : Byte) (s : State) : Bool :=
  match k with
  | .channel _ => channelEmpty (channelOf index) s
  | _ => true

/-- Steps 3 to 5 of R156 for a known key. -/
def writeChecks (k : SettingKey) (index : Byte) (v : Nat) (s : State) : List (Bool × Result) :=
  [(writableIn k s.mode, .mode), (indexOk k index && valueOk k v, .range), (targetEmpty k index s, .badState)]

/-- The action of WRITE_SETTING (R156). -/
def writeAct (p : PortId) (c : ClientId) (key index : Byte) (value : Half) (s : State) : State × Reply :=
  if !supervisorMaySend p c then refuse .denied s
  else
    match keyOf key with
    | none => refuse .range s
    | some k => checked (writeChecks k index value.toNat) (fun s => taken [] (writeKey k index value.toNat s)) s

/-- WRITE_SETTING of TIER_BUDGET (R50). -/
def execWriteTierBudget (p : PortId) (c : ClientId) (index : Byte) (value : Half) (s : State) : Out :=
  command p (.writeTierBudget p c index value) (writeAct p c 0x01 index value) s

/-- WRITE_SETTING of BUDGET_CAP (R50). -/
def execWriteBudgetCap (p : PortId) (c : ClientId) (index : Byte) (value : Half) (s : State) : Out :=
  command p (.writeBudgetCap p c index value) (writeAct p c 0x02 index value) s

/-- WRITE_SETTING of RESERVE_0 (R51). -/
def execWriteReserve0 (p : PortId) (c : ClientId) (index : Byte) (value : Half) (s : State) : Out :=
  command p (.writeReserve0 p c index value) (writeAct p c 0x03 index value) s

/-- WRITE_SETTING of EVENT_MASK (R158). -/
def execWriteEventMask (p : PortId) (c : ClientId) (index : Byte) (value : Half) (s : State) : Out :=
  command p (.writeEventMask p c index value) (writeAct p c 0x07 index value) s

/-- WRITE_SETTING of CH_ENABLE (R109). -/
def execWriteChEnable (p : PortId) (c : ClientId) (index : Byte) (value : Half) (s : State) : Out :=
  command p (.writeChEnable p c index value) (writeAct p c 0x10 index value) s

/-- WRITE_SETTING of any key byte (R156). -/
def execWriteSetting (p : PortId) (c : ClientId) (key index : Byte) (value : Half) (s : State) : Out :=
  command p (.writeSetting p c key index value) (writeAct p c key index value) s

/-- The action of READ_SETTING (R155), taken in every controller state. -/
def readSettingAct (p : PortId) (c : ClientId) (key index : Byte) (s : State) : State × Reply :=
  if !supervisorMaySend p c then refuse .denied s
  else
    match keyOf key with
    | none => refuse .range s
    | some k => if indexOk k index then taken (byte2 (readKey k index s)) s else refuse .range s

/-- READ_SETTING (R155). -/
def execReadSetting (p : PortId) (c : ClientId) (key index : Byte) (s : State) : Out :=
  command p (.readSetting p c key index) (readSettingAct p c key index) s

end Sys2Proof.Machine
end

