-- ==== Sys2Proof/Machine/Supervisor.lean ====
section
/-! DEFINITION. The supervisor commands that act on sessions (7.3), the controller state (8.2, 8.3), channels
(R125) and event flags (R159). -/

namespace Sys2Proof.Machine

/-! ## Sessions -/

/-- A client field of OPEN_CLIENT and CLOSE_CLIENT is 1 to 15 (R130, R133). -/
def sessionFieldOk (client : Byte) : Bool := within 1 15 client.toNat

/-- The client that a byte names. -/
def clientOf (b : Byte) : ClientId := Fin.ofNat 16 b.toNat

/-- The rights of an OPEN_CLIENT payload are in range (Table 33, Table 48). -/
def rightsOk (quota : Half) (limit best attention : Byte) : Bool :=
  within 0 20000 quota.toNat && within 1 16 limit.toNat && within 0 3 best.toNat && within 0 1 attention.toNat

/-- The action of OPEN_CLIENT (R133). -/
def openClientAct (p : PortId) (c : ClientId) (client : Byte) (quota : Half) (limit best attention : Byte)
    (s : State) : State × Reply :=
  checked
    (fun s => [(supervisorMaySend p c, .denied), (s.mode.notSafe, .mode),
      (sessionFieldOk client && rightsOk quota limit best attention, .range),
      (!(s.client (clientOf client)).isOpen, .badState)])
    (fun s =>
      let o := s.client (clientOf client)
      taken [] (s.setClient (clientOf client)
        { o with isOpen := true, quota := quota.toNat, limit := limit.toNat, best := best.toNat,
                 attention := decide (attention.toNat = 1) })) s

/-- OPEN_CLIENT (R133). -/
def execOpenClient (p : PortId) (c : ClientId) (client : Byte) (quota : Half) (limit best attention : Byte)
    (s : State) : Out :=
  command p (.openClient p c client quota limit best attention)
    (openClientAct p c client quota limit best attention) s

/-- The change of CLOSE_CLIENT (R134, R135): every record of the client is freed, its entry is CLOSED, and the
hand-offs are made once for the whole close. -/
def closeEntry (c : ClientId) (s : State) : State :=
  let mine := slotsWhere (fun r => decide (r.owner = c)) s
  let t := overRecords freeReporting mine s
  handOnChange (endings (recordsOf mine s)) (t.setClient c Client.closed)

/-- The port unit `u`, with the RENEW or RESIZE that it has handed on marked as overtaken where a CLOSE_CLIENT of client
`d` frees the record it names (R36, R76, log entry 29). -/
def PortUnit.overtakenBy (d : ClientId) (s : State) (u : PortUnit) : PortUnit :=
  let loses (x : ClientId × Half) := decide (x.1 = d) && (named x.2 s).any fun y => decide (y.2.owner = d)
  { u with overtaken := u.overtaken || (u.handed.bind changeOf).any loses }

/-- Both port units as a CLOSE_CLIENT of client `d` leaves them (R36, R76). -/
def overtake (d : ClientId) (s : State) : State :=
  { s with clientPort := s.clientPort.overtakenBy d s, managementPort := s.managementPort.overtakenBy d s }

/-- The action of CLOSE_CLIENT (R134): the response carries the number of records freed and the client held
before the close. -/
def closeClientAct (p : PortId) (c : ClientId) (client : Byte) (s : State) : State × Reply :=
  checked
    (fun s => [(supervisorMaySend p c, .denied), (s.mode.notSafe, .mode), (sessionFieldOk client, .range),
      ((s.client (clientOf client)).isOpen, .badState)])
    (fun s =>
      let o := clientOf client
      taken (byte1 (slotsWhere (fun r => decide (r.owner = o)) s).length ++ byte2 (s.client o).held)
        (closeEntry o (overtake o s))) s

/-- CLOSE_CLIENT (R134). -/
def execCloseClient (p : PortId) (c : ClientId) (client : Byte) (s : State) : Out :=
  command p (.closeClient p c client) (closeClientAct p c client) s

/-! ## Controller states (Table 40a) -/

/-- START is taken in CONFIG; BADSTATE in RUN and HOLD, MODE in SAFE. -/
def startMode : Mode → List (Bool × Result)
  | .config => []
  | .safe => [(false, .mode)]
  | _ => [(false, .badState)]

/-- HOLD is taken in RUN; BADSTATE in HOLD, MODE in CONFIG and SAFE. -/
def holdMode : Mode → List (Bool × Result)
  | .run => []
  | .hold => [(false, .badState)]
  | _ => [(false, .mode)]

/-- RESUME is taken in HOLD; BADSTATE in RUN, MODE in CONFIG and SAFE. -/
def resumeMode : Mode → List (Bool × Result)
  | .hold => []
  | .run => [(false, .badState)]
  | _ => [(false, .mode)]

/-- At least one channel's CH_ENABLE is YES (R149). -/
def someEnabled (s : State) : Bool := (List.finRange 24).any fun n => (s.channel n).profile.enable

/-- Client 0's entry while its session is OPEN: its implicit rights (R130). -/
def openSupervisor (o : Client) : Client :=
  { o with isOpen := true, quota := 20000, limit := 16, best := 0, attention := false }

/-- The action of START (R149). -/
def startAct (p : PortId) (c : ClientId) (s : State) : State × Reply :=
  checked (fun s => [(supervisorMaySend p c, .denied)] ++ startMode s.mode ++ [(someEnabled s, .range)])
    (fun s => taken [] ({ s with mode := .run }.setClient 0 (openSupervisor (s.client 0)))) s

/-- START (R149). -/
def execStart (p : PortId) (c : ClientId) (s : State) : Out := command p (.start p c) (startAct p c) s

/-- The action of HOLD (R150). -/
def holdAct (p : PortId) (c : ClientId) (s : State) : State × Reply :=
  checked (fun s => [(supervisorMaySend p c, .denied)] ++ holdMode s.mode)
    (fun s => taken [] { s with mode := .hold }) s

/-- HOLD (R150). -/
def execHold (p : PortId) (c : ClientId) (s : State) : Out := command p (.hold p c) (holdAct p c) s

/-- The action of RESUME (R150): a queue walk is triggered within the claim. -/
def resumeAct (p : PortId) (c : ClientId) (s : State) : State × Reply :=
  checked (fun s => [(supervisorMaySend p c, .denied)] ++ resumeMode s.mode)
    (fun s => taken [] (handOn false true { s with mode := .run })) s

/-- RESUME (R150). -/
def execResume (p : PortId) (c : ClientId) (s : State) : Out := command p (.resume p c) (resumeAct p c) s

/-- The action of ENTER_SAFE (R152). -/
def enterSafeAct (p : PortId) (c : ClientId) (s : State) : State × Reply :=
  checked (fun s => [(supervisorMaySend p c, .denied), (s.mode.notSafe, .mode)])
    (fun s => taken [] (safeEntry s)) s

/-- ENTER_SAFE (R152). -/
def execEnterSafe (p : PortId) (c : ClientId) (s : State) : Out := command p (.enterSafe p c) (enterSafeAct p c) s

/-- The change of RESTART (R153): the bulk clearing, controller state CONFIG, and every flag but SAFE_ENTERED
cleared. -/
def restartPart (s : State) : State :=
  { bulkClear s with mode := .config, flags := s.flags &&& EventFlag.safeEntered.mask }

/-- The action of RESTART (R153): in SAFE it needs the held SAFE_N level to be high. -/
def restartAct (p : PortId) (c : ClientId) (s : State) : State × Reply :=
  checked (fun s => [(supervisorMaySend p c, .denied), (s.mode.notSafe || s.safeHeld, .mode)])
    (fun s => taken [] (restartPart s)) s

/-- RESTART (R153). -/
def execRestart (p : PortId) (c : ClientId) (s : State) : Out := command p (.restart p c) (restartAct p c) s

/-! ## Channels and event flags -/

/-- The action of UNLOCK_CHANNEL (R125): LOCKED becomes OFF with its fault count 0; the cause is kept. -/
def unlockAct (p : PortId) (c : ClientId) (channel : Byte) (s : State) : State × Reply :=
  checked
    (fun s => [(supervisorMaySend p c, .denied), (s.mode.notSafe, .mode), (channelOk channel, .range),
      (decide ((s.channel (channelOf channel)).state = .locked), .badState)])
    (fun s =>
      let x := s.channel (channelOf channel)
      taken [] (s.setChannel (channelOf channel) { x.enter .off none with faultCount := 0 })) s

/-- UNLOCK_CHANNEL (R125). -/
def execUnlockChannel (p : PortId) (c : ClientId) (channel : Byte) (s : State) : Out :=
  command p (.unlockChannel p c channel) (unlockAct p c channel) s

/-- A port unit with both counts at 0 (R170). -/
def PortUnit.clearCounts (u : PortUnit) : PortUnit := { u with rejected := 0, overruns := 0 }

/-- The change of CLEAR_EVENTS (R159, R170): the named flags are cleared, and the four port counts when
PORT_ERROR is named. -/
def clearNamed (named : BitVec 7) (s : State) : State :=
  let t := { s with flags := s.flags &&& ~~~named }
  if named.getLsbD EventFlag.portError.bit then
    { t with clientPort := t.clientPort.clearCounts, managementPort := t.managementPort.clearCounts }
  else t

/-- The action of CLEAR_EVENTS (R159): bit 7 names no flag (R177). -/
def clearEventsAct (p : PortId) (c : ClientId) (flags : Byte) (s : State) : State × Reply :=
  checked (fun _ => [(supervisorMaySend p c, .denied), (!flags.getLsbD 7, .range)])
    (fun s =>
      let t := clearNamed (flags.setWidth 7) s
      taken (byte1 t.flags.toNat) t) s

/-- CLEAR_EVENTS (R159). -/
def execClearEvents (p : PortId) (c : ClientId) (flags : Byte) (s : State) : Out :=
  command p (.clearEvents p c flags) (clearEventsAct p c flags) s

end Sys2Proof.Machine
end

