-- ==== Sys2Proof/Machine/Timers.lean ====
section
/-! DEFINITION. The time base: the tick and the expiries of the timer places (chapter 2). An expiry is taken only
where its place is armed and due: a cancel or a replacement taken first withdraws it (R29). -/

namespace Sys2Proof.Machine

/-! ## Expiry effects -/

/-- A lease expiry at slot `i` (R37). -/
def takeLease (i : SlotId) (s : State) : State :=
  match (s.slot i).record with
  | some r =>
    match r.phase with
    | .live _ (some d) _ =>
      if dueAt s.tick d then handOnChange r.ending (retireReporting .leaseExpired i r s) else s
    | _ => s
  | none => s

/-- A wait expiry at slot `i` (R66). -/
def takeWait (i : SlotId) (s : State) : State :=
  match (s.slot i).record with
  | some r =>
    match r.phase with
    | .queued (some d) =>
      if dueAt s.tick d then handOnChange r.ending (retireReporting .waitExpired i r s) else s
    | _ => s
  | none => s

/-- A notice expiry at slot `i` (R95). -/
def takeNotice (i : SlotId) (s : State) : State :=
  match (s.slot i).record with
  | some r =>
    match r.phase with
    | .live _ _ (some n) =>
      if dueAt s.tick n.deadline then handOnChange r.ending (retireReporting .revokedTimeout i r s) else s
    | _ => s
  | none => s

/-- The place of channel `n` holds this timer and it is due. -/
def channelDue (k : ChannelTimer) (n : ChannelId) (s : State) : Bool :=
  match (s.channel n).timer with
  | some (k', d) => decide (k' = k) && dueAt s.tick d
  | none => false

/-- A start timer expiry (R114): a start failure, taken as a fault with cause START_TIMEOUT. -/
def takeStart (n : ChannelId) (s : State) : State :=
  if channelDue .start n s && decide ((s.channel n).state = .starting) then fault n .startTimeout s else s

/-- A discharge expiry (R118): STARTING where the channel has live grants, otherwise OFF. -/
def takeDischarge (n : ChannelId) (s : State) : State :=
  let x := s.channel n
  if channelDue .discharge n s && decide (x.state = .stopping) then
    s.setChannel n (if x.live = 0 then x.enter .off none else x.beginStart s.tick)
  else s

/-- A cooldown expiry (R123): OFF, and a walk is triggered. -/
def takeCooldown (n : ChannelId) (s : State) : State :=
  let x := s.channel n
  if channelDue .cooldown n s && decide (x.state = .faulted) then
    handOn false true (s.setChannel n (x.enter .off none))
  else s

/-- A clean expiry (R124): the fault count becomes 0, and the channel stays ON with its place empty. -/
def takeClean (n : ChannelId) (s : State) : State :=
  let x := s.channel n
  if channelDue .clean n s && decide (x.state = .on) then
    s.setChannel n { x with faultCount := 0, timer := none }
  else s

/-- A settle expiry (R45). -/
def takeSettle (s : State) : State :=
  match s.settleTimer with
  | some d =>
    if dueAt s.tick d then
      rebudget (raise .tierChanged
        { s with selected := s.pendingTier.getD s.selected, pendingTier := none, settleTimer := none })
    else s
  | none => s

/-! ## The tick -/

/-- The timer places (Table 12). -/
inductive Place where
  | lease (i : SlotId)
  | wait (i : SlotId)
  | notice (i : SlotId)
  | channel (n : ChannelId)
  | settle
deriving DecidableEq, Repr

/-- A code for each place. -/
def Place.code : Place → Nat
  | .lease i => i.val
  | .wait i => 64 + i.val
  | .notice i => 128 + i.val
  | .channel n => 192 + n.val
  | .settle => 216

/-- All timer places. -/
def allPlaces : List Place :=
  (List.finRange 64).map .lease ++ (List.finRange 64).map .wait ++ (List.finRange 64).map .notice
    ++ (List.finRange 24).map .channel ++ [.settle]

/-- The deadline that a place holds; none when it is empty. -/
def deadlineOf (s : State) : Place → Option Tick
  | .lease i => (s.slot i).record.bind fun r =>
      match r.phase with
      | .live _ lease _ => lease
      | _ => none
  | .wait i => (s.slot i).record.bind fun r =>
      match r.phase with
      | .queued wait => wait
      | _ => none
  | .notice i => (s.slot i).record.bind fun r => r.notice?.map Notice.deadline
  | .channel n => (s.channel n).timer.map Prod.snd
  | .settle => s.settleTimer

/-- The place is armed and due. -/
def placeDue (s : State) (q : Place) : Bool := (deadlineOf s q).any fun d => dueAt s.tick d

/-- Take the expiry of a place, whichever timer it holds. -/
def takePlace (q : Place) (s : State) : State :=
  match q with
  | .lease i => takeLease i s
  | .wait i => takeWait i s
  | .notice i => takeNotice i s
  | .channel n => takeClean n (takeCooldown n (takeDischarge n (takeStart n s)))
  | .settle => takeSettle s

/-- Take the expiries of several places, one whole claim after another. -/
def takePlaces : List Place → State → State
  | [], s => s
  | q :: rest, s => takePlaces rest (takePlace q s)

/-- The places whose expiry is raised and not yet taken. -/
def duePlaces (s : State) : List Place := allPlaces.filter (placeDue s)

/-- Take every expiry that is due: its owner takes it before the counter advances past its deadline (R29). Their
order is open (R31, R38; log entry 8). -/
def takeDue (s : State) : State :=
  if (duePlaces s).isEmpty then s
  else
    nextOrder (takePlaces (orderBy (fun q => Config.rank s.fresh q.code) (duePlaces s)) (resetEntry s))

/-! ## Rows -/

/-- TICK (R26, R29): expiries still due are taken, and the counter advances by one, modulo 2^32. -/
def execTick (s : State) : Out :=
  let t := takeDue s
  .next (driveLines { t with tick := t.tick + 1 })

/-- LEASE_EXPIRY (R37). -/
def execLeaseExpiry (slot : SlotId) (s : State) : Out := claimWhen (placeDue s (.lease slot)) (takeLease slot) s

/-- WAIT_EXPIRY (R66). -/
def execWaitExpiry (slot : SlotId) (s : State) : Out := claimWhen (placeDue s (.wait slot)) (takeWait slot) s

/-- NOTICE_EXPIRY (R95). -/
def execNoticeExpiry (slot : SlotId) (s : State) : Out := claimWhen (placeDue s (.notice slot)) (takeNotice slot) s

/-- START_TIMEOUT (R114). -/
def execStartTimeout (n : ChannelId) (s : State) : Out := claimWhen (channelDue .start n s) (takeStart n) s

/-- DISCHARGE_EXPIRY (R118). -/
def execDischargeExpiry (n : ChannelId) (s : State) : Out :=
  claimWhen (channelDue .discharge n s) (takeDischarge n) s

/-- COOLDOWN_EXPIRY (R123). -/
def execCooldownExpiry (n : ChannelId) (s : State) : Out := claimWhen (channelDue .cooldown n s) (takeCooldown n) s

/-- CLEAN_EXPIRY (R124): taken by the channel controller without a claim (R107). -/
def execCleanExpiry (n : ChannelId) (s : State) : Out := .next (takeClean n s)

/-- SETTLE_EXPIRY (R45). -/
def execSettleExpiry (s : State) : Out := claimWhen (placeDue s .settle) takeSettle s

end Sys2Proof.Machine
end

