-- ==== Sys2Proof/Machine/Dispatch.lean ====
section
/-! DEFINITION. The effect of every command and event on everything but the queue: one arm per row of
spec/opcode_table.json, in the table's order. -/

namespace Sys2Proof.Machine

def exec (i : Instr) (s : State) : Host.Outcome State Fault Refusal :=
  match i with
  | .request p c channel amount cls flags lease floor timeout tag => Sys2Proof.Machine.execRequest p c channel amount cls flags lease floor timeout tag s
  | .release p c handle => Sys2Proof.Machine.execRelease p c handle s
  | .resize p c handle amount => Sys2Proof.Machine.execResize p c handle amount s
  | .renew p c handle => Sys2Proof.Machine.execRenew p c handle s
  | .answerAck p c handle => Sys2Proof.Machine.execAnswerAck p c handle s
  | .answerNak p c handle => Sys2Proof.Machine.execAnswerNak p c handle s
  | .answerBusy p c fields => Sys2Proof.Machine.execAnswerBusy p c fields s
  | .query p c handle => Sys2Proof.Machine.execQuery p c handle s
  | .list p c filters client channel first => Sys2Proof.Machine.execList p c filters client channel first s
  | .nextNotice p c => Sys2Proof.Machine.execNextNotice p c s
  | .clientStatus p c target => Sys2Proof.Machine.execClientStatus p c target s
  | .openClient p c client quota limit best attention => Sys2Proof.Machine.execOpenClient p c client quota limit best attention s
  | .closeClient p c client => Sys2Proof.Machine.execCloseClient p c client s
  | .forceRetire p c handle => Sys2Proof.Machine.execForceRetire p c handle s
  | .writeTierBudget p c index value => Sys2Proof.Machine.execWriteTierBudget p c index value s
  | .writeBudgetCap p c index value => Sys2Proof.Machine.execWriteBudgetCap p c index value s
  | .writeReserve0 p c index value => Sys2Proof.Machine.execWriteReserve0 p c index value s
  | .writeEventMask p c index value => Sys2Proof.Machine.execWriteEventMask p c index value s
  | .writeChEnable p c index value => Sys2Proof.Machine.execWriteChEnable p c index value s
  | .writeSetting p c key index value => Sys2Proof.Machine.execWriteSetting p c key index value s
  | .readSetting p c key index => Sys2Proof.Machine.execReadSetting p c key index s
  | .start p c => Sys2Proof.Machine.execStart p c s
  | .hold p c => Sys2Proof.Machine.execHold p c s
  | .resume p c => Sys2Proof.Machine.execResume p c s
  | .enterSafe p c => Sys2Proof.Machine.execEnterSafe p c s
  | .restart p c => Sys2Proof.Machine.execRestart p c s
  | .unlockChannel p c channel => Sys2Proof.Machine.execUnlockChannel p c channel s
  | .readStatus p c => Sys2Proof.Machine.execReadStatus p c s
  | .readChannel p c channel => Sys2Proof.Machine.execReadChannel p c channel s
  | .clearEvents p c flags => Sys2Proof.Machine.execClearEvents p c flags s
  | .writeTransaction bus bytes => Sys2Proof.Machine.execWriteTransaction bus bytes s
  | .readTransaction bus count => Sys2Proof.Machine.execReadTransaction bus count s
  | .directionByteRefused direction count => Sys2Proof.Machine.execDirectionByteRefused direction count s
  | .responsePlaced p => Sys2Proof.Machine.execResponsePlaced p s
  | .tick => Sys2Proof.Machine.execTick s
  | .leaseExpiry slot => Sys2Proof.Machine.execLeaseExpiry slot s
  | .waitExpiry slot => Sys2Proof.Machine.execWaitExpiry slot s
  | .noticeExpiry slot => Sys2Proof.Machine.execNoticeExpiry slot s
  | .startTimeout n => Sys2Proof.Machine.execStartTimeout n s
  | .dischargeExpiry n => Sys2Proof.Machine.execDischargeExpiry n s
  | .cooldownExpiry n => Sys2Proof.Machine.execCooldownExpiry n s
  | .cleanExpiry n => Sys2Proof.Machine.execCleanExpiry n s
  | .settleExpiry => Sys2Proof.Machine.execSettleExpiry s
  | .lineChange value => Sys2Proof.Machine.execLineChange value s
  | .powerGood n => Sys2Proof.Machine.execPowerGood n s
  | .powerLoss n => Sys2Proof.Machine.execPowerLoss n s
  | .trip n => Sys2Proof.Machine.execTrip n s
  | .fltRise n => Sys2Proof.Machine.execFltRise n s
  | .safeNFall => Sys2Proof.Machine.execSafeNFall s
  | .safeNRise => Sys2Proof.Machine.execSafeNRise s
  | .powerOn pins => Sys2Proof.Machine.execPowerOn pins s
  | .pinReset pins => Sys2Proof.Machine.execPinReset pins s
  | .resetSafeEntry => Sys2Proof.Machine.execResetSafeEntry s
  | .sampledLineEvent n => Sys2Proof.Machine.execSampledLineEvent n s

end Sys2Proof.Machine
end

