-- ==== Sys2Proof/Machine/Step.lean ====
section
/-! DEFINITION. One step of the TG24: the command or event at the front of the queue is taken. -/

namespace Sys2Proof.Machine

/-- Take the command at the front of the queue, with the queue's rest; on an empty queue the part idles. -/
def step (s : State) : Host.Outcome State Fault Refusal :=
  match s.pending with
  | [] => .next s
  | i :: rest => exec i { s with pending := rest }

/-- Put the command that a word spells at the front of the queue; a word that spells none changes nothing. -/
def State.withFetchWord (s : State) (nbits w : Nat) : State :=
  match decodeTableWord nbits w with
  | some i => { s with pending := i :: s.pending }
  | none => s

end Sys2Proof.Machine
end

