-- ==== Sys2Proof/Safety.lean ====
section
/-! DEFINITION. What the statements about the TG24 are made of: what a claim leaves as it was, what a command's
answer is, and the relations that the manual says every claim keeps. -/

namespace Sys2Proof.Machine

/-! ## Frames -/

/-- What no change of records touches: the time base, the budget unit, the controller state, the settings, the
pins of the budget unit and the controller core, and the sender's queue. -/
structure SamePart (s t : State) : Prop where
  tick        : t.tick = s.tick
  settleTimer : t.settleTimer = s.settleTimer
  selected    : t.selected = s.selected
  pendingTier : t.pendingTier = s.pendingTier
  budget      : t.budget = s.budget
  mode        : t.mode = s.mode
  settings    : t.settings = s.settings
  safeHeld    : t.safeHeld = s.safeHeld
  resetSafe   : t.resetSafe = s.resetSafe
  address     : t.address = s.address
  tierLines   : t.tierLines = s.tierLines
  safePin     : t.safePin = s.safePin
  addrPin     : t.addrPin = s.addrPin
  pending     : t.pending = s.pending

/-- The grant body: slots, lists, sums, shed state, channels, clients and event flags. -/
structure SameBody (s t : State) : Prop where
  slots     : t.slots = s.slots
  admission : t.admission = s.admission
  committed : t.committed = s.committed
  waitQueue : t.waitQueue = s.waitQueue
  shed      : t.shed = s.shed
  shedList  : t.shedList = s.shedList
  relief    : t.relief = s.relief
  channels  : t.channels = s.channels
  clients   : t.clients = s.clients
  flags     : t.flags = s.flags

/-- Both port units and the last response as they were. -/
structure SamePorts (s t : State) : Prop where
  clientPort     : t.clientPort = s.clientPort
  managementPort : t.managementPort = s.managementPort
  response       : t.response = s.response

/-- Two records stand for the same grant: every field but the phase and the pending kinds agrees (R6). -/
structure SameGrant (r r' : Record) : Prop where
  owner   : r'.owner = r.owner
  channel : r'.channel = r.channel
  amount  : r'.amount = r.amount
  floor   : r'.floor = r.floor
  cls     : r'.cls = r.cls
  kind    : r'.kind = r.kind
  tag     : r'.tag = r.tag

/-- How a hand-off may move a phase: a QUEUED record waits on with its deadline or becomes live, a live record
keeps its powered field and its lease, and a tombstone keeps its reason. -/
def Phase.moves : Phase → Phase → Prop
  | .queued w, .queued w' => w' = w
  | .queued _, .live _ _ _ => True
  | .live p l _, .live p' l' _ => p' = p ∧ l' = l
  | .retired a, .retired b => b = a
  | _, _ => False

/-- How a hand-off may move a slot: the generation stays, a FREE slot stays FREE, a record stays the same grant,
and a tombstone stays as it is. -/
structure SlotMoves (x y : Slot) : Prop where
  gen    : y.gen = x.gen
  free   : x.record = none → y.record = none
  record : ∀ r, x.record = some r →
    ∃ r', y.record = some r' ∧ SameGrant r r' ∧ r.phase.moves r'.phase ∧ (r.isRetired = true → r' = r)

/-- What a change of records keeps of a channel: its profile, fault count, last cause and input levels. -/
structure ChannelKept (x y : Channel) : Prop where
  profile    : y.profile = x.profile
  faultCount : y.faultCount = x.faultCount
  cause      : y.cause = x.cause
  pg         : y.pg = x.pg
  fltN       : y.fltN = x.fltN

/-- A client entry with the same session and the same rights. -/
structure RightsKept (o o' : Client) : Prop where
  isOpen    : o'.isOpen = o.isOpen
  quota     : o'.quota = o.quota
  limit     : o'.limit = o.limit
  best      : o'.best = o.best
  attention : o'.attention = o.attention

/-- What a claim on records leaves as it was, but for the slots and channels named: the rest of the part, every
other slot up to a hand-off, every other channel's profile, count, cause and levels, every client's rights, and
the event flags that were set. -/
structure GrantFrame (slots : SlotId → Prop) (channels : ChannelId → Prop) (s t : State) : Prop where
  part     : SamePart s t
  slots    : ∀ j, ¬ slots j → SlotMoves (s.slot j) (t.slot j)
  channels : ∀ n, ¬ channels n → ChannelKept (s.channel n) (t.channel n)
  rights   : ∀ c, RightsKept (s.client c) (t.client c)
  flags    : ∀ k, s.flags.getLsbD k = true → t.flags.getLsbD k = true

/-- Every client's held power and slot count as they were. -/
def SameHoldings (s t : State) : Prop :=
  ∀ c, (t.client c).held = (s.client c).held ∧ (t.client c).occupied = (s.client c).occupied

/-- The slot is FREE or holds a tombstone. -/
def Spent (j : SlotId) (s : State) : Prop := ∀ r, (s.slot j).record = some r → r.isRetired = true

/-- A slot that joins no list, and keeps its places in the notice queues. -/
structure StaysOut (j : SlotId) (s t : State) : Prop where
  admission : j ∈ t.admission → j ∈ s.admission
  waitQueue : j ∈ t.waitQueue → j ∈ s.waitQueue
  shedList  : j ∈ t.shedList → j ∈ s.shedList
  notices   : ∀ c, j ∈ (t.client c).notices ↔ j ∈ (s.client c).notices

/-- What a shed evaluation and a queue walk leave as it was: they free and retire nothing, so every client's held
power and slot count stay, they put no FREE slot and no tombstone in a list, and they touch no port
(R20, R82, R69). -/
structure HandOff (s t : State) : Prop where
  frame    : GrantFrame (fun _ => False) (fun _ => False) s t
  ports    : SamePorts s t
  holdings : SameHoldings s t
  spent    : ∀ j, Spent j s → StaysOut j s t

/-- Every client's held power and slot count as they were, but for the owner of `r`, who holds `r.amount` less
and occupies `k` slots fewer. -/
def OwnerGivesBack (r : Record) (k : Nat) (s t : State) : Prop :=
  ∀ c, (t.client c).held = (s.client c).held - (if c = r.owner then r.amount else 0) ∧
    (t.client c).occupied = (s.client c).occupied - (if c = r.owner then k else 0)

/-- The slot is in none of the admission list, the wait queue and the shed list. -/
def InNoList (i : SlotId) (t : State) : Prop := i ∉ t.admission ∧ i ∉ t.waitQueue ∧ i ∉ t.shedList

/-- Slot `i`, which held `r`, is FREE with its generation advanced, in no list and in no notice queue of its
owner, and all else is kept up to hand-offs (R11, R12). -/
structure Frees (i : SlotId) (r : Record) (s t : State) : Prop where
  slot     : t.slot i = { gen := (s.slot i).gen + 1, record := none }
  lists    : InNoList i t
  queue    : i ∉ (t.client r.owner).notices
  holdings : OwnerGivesBack r 1 s t
  frame    : GrantFrame (fun j => j = i) (fun _ => False) s t

/-- Slot `i`, which held `r`, holds the tombstone of `r` with this reason and the one pending kind RETIRED, in
no list; all else is kept up to hand-offs (R13). -/
structure Retires (i : SlotId) (r : Record) (reason : Reason) (s t : State) : Prop where
  slot     : t.slot i =
    { gen := (s.slot i).gen, record := some { r with phase := .retired reason, kinds := { retired := true } } }
  lists    : InNoList i t
  queue    : r.kinds.isEmpty = true ∨ i ∈ (s.client r.owner).notices → i ∈ (t.client r.owner).notices
  holdings : OwnerGivesBack r 0 s t
  frame    : GrantFrame (fun j => j = i) (fun _ => False) s t

/-- No queue walk that follows a change of the record of slot `i` can admit anything: the controller state is not
RUN, the shed state that the claim leaves is not IDLE, or no other record waits (R68). -/
def NoWalk (i : SlotId) (s t : State) : Prop := s.mode ≠ .run ∨ t.shed ≠ .idle ∨ ∀ j ∈ s.waitQueue, j = i

/-- The shed engine, and the event flags, as a change that requests no evaluation leaves them, but that slot `i` is
no longer in the shed list. -/
structure ShedKeptBut (i : SlotId) (s t : State) : Prop where
  shed     : t.shed = s.shed
  shedList : t.shedList = s.shedList.filter fun j => decide (j ≠ i)
  relief   : t.relief = s.relief
  flags    : t.flags = s.flags

/-- The lists and the sums after the end of the record `r` of slot `i` (R11, R13, R16 to R18): what it was counted in
is lowered by its share, where no walk admits another record into the room. -/
structure SumsFall (i : SlotId) (r : Record) (s t : State) : Prop where
  admission : t.admission = s.admission.filter fun j => decide (j ≠ i)
  waitQueue : t.waitQueue = s.waitQueue.filter fun j => decide (j ≠ i)
  committed : t.committed = s.committed - (if r.isLive then r.amount else 0)
  client    : ∀ c, (t.client c).committed =
    (s.client c).committed - (if c = r.owner ∧ r.isLive = true then r.amount else 0)
  sum       : ∀ n, (t.channel n).sum =
    (s.channel n).sum - (if n = r.channel ∧ r.isLive = true then r.amount else 0)
  live      : ∀ n, (t.channel n).live =
    (s.channel n).live - (if n = r.channel ∧ r.isLive = true then 1 else 0)
  queued    : ∀ n, (t.channel n).queued =
    (s.channel n).queued - (if n = r.channel ∧ r.isQueued = true then 1 else 0)

/-- The channel `x`, as the claim found it, has lost its last live grant and has become `y` (R116): a channel that
drove its switch is STOPPING with its discharge timer, or, with CH_DISCHARGE 0, OFF; in the walk of the same claim a
record that waits for it may start it again. A STOPPING channel goes on. -/
structure Stops (s : State) (n : ChannelId) (x y : Channel) : Prop where
  stopping : x.state.drives = true → x.profile.discharge ≠ 0 →
    y.state = .stopping ∧ y.en = false ∧
      y.timer = some (.discharge, s.tick + BitVec.ofNat 32 x.profile.discharge)
  off      : x.state.drives = true → x.profile.discharge = 0 → y.state = .off ∨ y.state = .starting
  stays    : x.state.drives = true → x.profile.discharge = 0 →
    (∀ j q, (s.slot j).record = some q → q.isQueued = true → q.channel ≠ n) →
    y.state = .off ∧ y.en = false ∧ y.timer = none
  goesOn   : x.state = .stopping → y.state = .stopping ∧ y.timer = x.timer ∧ y.en = x.en

/-- A channel that goes on as it was: its state, its enable line and its timer. -/
def GoesOn (x y : Channel) : Prop := y.state = x.state ∧ y.en = x.en ∧ y.timer = x.timer

/-- The end of the record `r` of slot `i`, in the lists, the sums and the shed engine, and in its channel: the
last-grant report where `r` was its channel's last live grant, and none where another is left (R11, R13, R20, R116). -/
structure Ends (i : SlotId) (r : Record) (s t : State) : Prop where
  sums  : NoWalk i s t → SumsFall i r s t
  shed  : r.notice? = none → (r.isLive = true → s.shed ≠ .strained) → ShedKeptBut i s t
  last  : r.isLive = true → (s.channel r.channel).live = 1 →
    Stops s r.channel (s.channel r.channel) (t.channel r.channel)
  other : r.isLive = true → 2 ≤ (s.channel r.channel).live →
    GoesOn (s.channel r.channel) (t.channel r.channel)

/-- The record `q` that waited in slot `j` has been admitted (R61). -/
def WasAdmitted (j : SlotId) (q : Record) (t : State) : Prop :=
  ∃ q', (t.slot j).record = some q' ∧ SameGrant q q' ∧ q'.isActive = true ∧ j ∉ t.waitQueue ∧ j ∈ t.admission

/-! ## Answers -/

/-- The command `i` of port `p` was answered `a`: the other port is as it was, and this port holds the answer
where it had handed on this very command. -/
structure Answered (p : PortId) (i : Instr) (a : Reply) (s t : State) : Prop where
  response : t.response = some (p, a)
  own      : t.port p =
      if (s.port p).handed = some i then { s.port p with handed := none, overtaken := false, reply := some a }
      else s.port p
  other    : ∀ q, q ≠ p → t.port q = s.port q

/-- ATTN_N and ALERT_N are at their conditions (R144, R158). -/
structure LinesDriven (t : State) : Prop where
  attn  : t.attn = attnCondition t
  alert : t.alert = alertCondition t

/-- The command `i` of port `p` is taken with the answer `a`, and leaves a state of which `P` holds. -/
def Takes (p : PortId) (i : Instr) (a : Reply) (s : State) (P : State → Prop) : Prop :=
  ∃ t, exec i s = .next t ∧ Answered p i a s t ∧ LinesDriven t ∧ P t

/-- The event `i` is taken, touches no port, and leaves a state of which `P` holds. -/
def Happens (i : Instr) (s : State) (P : State → Prop) : Prop :=
  ∃ t, exec i s = .next t ∧ SamePorts s t ∧ LinesDriven t ∧ P t

/-- The command `i` of port `p` answers `a` and changes nothing else. -/
def OnlyAnswers (p : PortId) (i : Instr) (a : Reply) (s : State) : Prop :=
  Takes p i a s fun t => SamePart s t ∧ SameBody s t

/-- The handle that is current for slot `i`. -/
def currentHandle (i : SlotId) (s : State) : Half := BitVec.ofNat 16 (handleOf i (s.slot i).gen)

/-- A client command of `c` on port `p` passes the port and session tests (R131, R132), and no safe entry of a
reset is due. -/
structure ClientMayAct (p : PortId) (c : ClientId) (s : State) : Prop where
  port    : clientMaySend p c = true
  session : (s.client c).isOpen = true
  settled : s.resetSafe = false

/-- A supervisor command of client 0 on the management port, when no safe entry of a reset is due. -/
structure SupervisorMayAct (p : PortId) (c : ClientId) (s : State) : Prop where
  port    : p = .management
  client  : c = 0
  settled : s.resetSafe = false

/-- The handle `h` names the record `r` of slot `i`. -/
structure Names (h : Half) (i : SlotId) (r : Record) (s : State) : Prop where
  handle : h.toNat = handleOf i (s.slot i).gen
  record : (s.slot i).record = some r

/-- A client command of `c` on port `p` that names the record `r` of slot `i`, which is its own, in RUN or HOLD:
it passes the checks of R4 that RELEASE, RESIZE, RENEW and ANSWER share. -/
structure NamesOwn (p : PortId) (c : ClientId) (h : Half) (i : SlotId) (r : Record) (s : State) : Prop where
  may    : ClientMayAct p c s
  serves : s.mode.serves = true
  names  : Names h i r s
  owner  : r.owner = c

/-! ## Exact changes -/

/-- The rest of the part, and every slot, channel and client but those named, are as they were. -/
structure Untouched (slots : SlotId → Prop) (channels : ChannelId → Prop) (clients : ClientId → Prop)
    (s t : State) : Prop where
  part     : SamePart s t
  slots    : ∀ j, ¬ slots j → t.slot j = s.slot j
  channels : ∀ n, ¬ channels n → t.channel n = s.channel n
  clients  : ∀ c, ¬ clients c → t.client c = s.client c

/-- The shed engine and the event flags are as they were. -/
structure ShedAndFlagsKept (s t : State) : Prop where
  shed     : t.shed = s.shed
  shedList : t.shedList = s.shedList
  relief   : t.relief = s.relief
  flags    : t.flags = s.flags

/-- The admission list, the committed total, the wait queue, the shed engine and the event flags are as they
were. -/
structure ListsKept (s t : State) : Prop where
  admission : t.admission = s.admission
  committed : t.committed = s.committed
  waitQueue : t.waitQueue = s.waitQueue
  others    : ShedAndFlagsKept s t

/-- The record `r` of slot `i` has become `r'` with its new amount, in every sum that its owner holds, and all
else is kept up to hand-offs (R18). -/
structure Reamounts (i : SlotId) (r r' : Record) (s t : State) : Prop where
  slot     : SlotMoves { gen := (s.slot i).gen, record := some r' } (t.slot i)
  held     : ∀ c, (t.client c).held =
    if c = r.owner then (s.client c).held - r.amount + r'.amount else (s.client c).held
  occupied : ∀ c, (t.client c).occupied = (s.client c).occupied
  frame    : GrantFrame (fun j => j = i) (fun _ => False) s t

/-- The evaluation of the claim has chosen the record `r'` of slot `i` as a victim: it is NOTICED with a new notice,
its required amount below its amount, and REDUCE is in its pending set (R83, R84). -/
def NoticedAnew (i : SlotId) (r' : Record) (s t : State) : Prop :=
  ∃ (powered : Bool) (lease : Option Tick) (required : Nat),
    r'.phase = .live powered lease none ∧ required < r'.amount ∧ r'.cls ≠ 0 ∧ t.shed = .shedding ∧ i ∈ t.shedList ∧
    t.slot i = { gen := (s.slot i).gen,
                 record := some { r' with
                   phase := .live powered lease (some
                     { required := required, deadline := s.tick + BitVec.ofNat 32 s.settings.noticeTime, busy := 0 })
                   kinds := { r'.kinds with withdrawn := false, reduce := true } } }

/-- The live record `r` of slot `i` has become exactly `r'`, unless the evaluation of the claim has given it a new
notice; and the lists and the sums move by the difference of the two amounts, where no walk admits another record into
the room (R18, R73, R90). -/
structure Becomes (i : SlotId) (r r' : Record) (s t : State) : Prop where
  slot      : t.slot i = { gen := (s.slot i).gen, record := some r' } ∨ NoticedAnew i r' s t
  calm      : r.notice? = none → s.shed ≠ .strained →
    t.slot i = { gen := (s.slot i).gen, record := some r' } ∧ ShedAndFlagsKept s t
  admission : NoWalk i s t → t.admission = s.admission ∧ t.waitQueue = s.waitQueue
  committed : NoWalk i s t → t.committed = s.committed - r.amount + r'.amount
  client    : NoWalk i s t → ∀ c, (t.client c).committed =
    if c = r.owner then (s.client c).committed - r.amount + r'.amount else (s.client c).committed
  sum       : NoWalk i s t → ∀ n, (t.channel n).sum =
    if n = r.channel then (s.channel n).sum - r.amount + r'.amount else (s.channel n).sum
  goesOn    : (s.channel r.channel).live ≠ 0 → GoesOn (s.channel r.channel) (t.channel r.channel)

/-- What a shed evaluation has found (R87). -/
structure ShedSettled (t : State) : Prop where
  shedding : t.shed = .shedding ↔ t.shedList ≠ []
  idle     : t.shed = .idle → t.committed ≤ t.budget
  strained : t.shed = .strained → t.budget < t.committed

/-- The bulk clearing (R151, steps 1 to 5, with R128), and what it leaves: the budget unit, the counter and the
settings (R54, R26), and the pins but SAFE_N. -/
structure Cleared (s t : State) : Prop where
  slots       : ∀ i, (t.slot i).record = none ∧
    (t.slot i).gen = if (s.slot i).record = none then (s.slot i).gen else (s.slot i).gen + 1
  admission   : t.admission = []
  committed   : t.committed = 0
  waitQueue   : t.waitQueue = []
  shed        : t.shed = .idle
  shedList    : t.shedList = []
  relief      : t.relief = 0
  clients     : ∀ c, t.client c = Client.closed
  channels    : ∀ n, ChannelKept (s.channel n) (t.channel n) ∧
    (t.channel n).sum = 0 ∧ (t.channel n).live = 0 ∧ (t.channel n).queued = 0
  stopped     : ∀ n, (s.channel n).state.drives = true →
    (t.channel n).en = false ∧
    (t.channel n).state = (if (s.channel n).profile.discharge = 0 then .off else .stopping) ∧
    (t.channel n).timer = if (s.channel n).profile.discharge = 0 then none
      else some (.discharge, s.tick + BitVec.ofNat 32 (s.channel n).profile.discharge)
  others      : ∀ n, (s.channel n).state.drives = false →
    (t.channel n).en = (s.channel n).en ∧ (t.channel n).state = (s.channel n).state ∧
    (t.channel n).timer = (s.channel n).timer
  tick        : t.tick = s.tick
  settleTimer : t.settleTimer = s.settleTimer
  selected    : t.selected = s.selected
  pendingTier : t.pendingTier = s.pendingTier
  budget      : t.budget = s.budget
  settings    : t.settings = s.settings
  address     : t.address = s.address
  tierLines   : t.tierLines = s.tierLines
  addrPin     : t.addrPin = s.addrPin
  pending     : t.pending = s.pending

/-! ## REQUEST -/

/-- A request passes checks 4 to 8 of R56, with the channel test of R57. -/
structure RequestPasses (c : ClientId) (a : Ask) (s : State) : Prop where
  rights    : (s.client c).best ≤ a.cls.val
  available : channelAvailable a.wait (s.channel a.channel).state = true
  ceiling   : a.amount ≤ (s.channel a.channel).profile.ceiling
  quota     : (s.client c).held + a.amount ≤ (s.client c).quota
  limit     : (s.client c).occupied < (s.client c).limit

/-- Slot `i` is the lowest-numbered FREE slot (R5). -/
structure LowestFree (i : SlotId) (s : State) : Prop where
  free   : (s.slot i).record = none
  lowest : ∀ j, j < i → (s.slot j).record ≠ none

/-- The conditions of immediate admission (R58). -/
structure FitsNow (a : Ask) (s : State) : Prop where
  run     : s.mode = .run
  idle    : s.shed = .idle
  queue   : ∀ j ∈ s.waitQueue, a.cls.val < classOf s j
  cool    : (s.channel a.channel).state ≠ .faulted
  ceiling : (s.channel a.channel).sum + a.amount ≤ (s.channel a.channel).profile.ceiling
  room    : a.amount ≤ headroom a.cls s

/-- The conditions of an upward RESIZE of `r` to `a`, in the order of R74, with the result that each failure
gives. -/
def growthTests (r : Record) (a : Nat) (s : State) : List (Bool × Result) :=
  [(decide (a ≤ (s.channel r.channel).profile.ceiling), .range),
   (decide ((s.client r.owner).held + (a - r.amount) ≤ (s.client r.owner).quota), .quota),
   (decide (s.mode = .run ∧ s.shed = .idle ∧ (∀ j ∈ s.waitQueue, r.cls.val < classOf s j) ∧
      (s.channel r.channel).sum + (a - r.amount) ≤ (s.channel r.channel).profile.ceiling ∧
      a - r.amount ≤ headroom r.cls s), .noRoom)]

/-- The channel that a first-grant report starts (R111, R110). -/
def Channel.startedAt (now : Tick) (x : Channel) : Channel :=
  { x with state := .starting, en := true, timer := some (.start, now + BitVec.ofNat 32 x.profile.startTime),
           sampled := if x.fltN = false then some .trip else if x.pg then some .powerGood else none }

/-- Channel `x` with one more live grant of this amount: an OFF channel whose first grant it is starts. -/
def Channel.withGrant (now : Tick) (amount : Nat) (x : Channel) : Channel :=
  if x.live = 0 ∧ x.state = .off then
    { x.startedAt now with sum := x.sum + amount, live := x.live + 1 }
  else { x with sum := x.sum + amount, live := x.live + 1 }

/-! ## The layouts of the views (Tables 50 to 54), by the offsets of their bytes -/

/-- The grant view (Table 50). -/
structure GrantLayout (i : SlotId) (r : Record) (s : State) (v : List Byte) : Prop where
  length   : v.length = 34
  handle   : halfAt v 0 = currentHandle i s
  state    : byteAt v 2 = BitVec.ofNat 8 r.phase.code
  owner    : byteAt v 3 = BitVec.ofNat 8 r.owner.val
  channel  : byteAt v 4 = BitVec.ofNat 8 r.channel.val
  amount   : halfAt v 5 = BitVec.ofNat 16 r.amount
  cls      : byteAt v 7 = BitVec.ofNat 8 r.cls.val
  leased   : (byteAt v 8).getLsbD 0 = r.leaseLength?.isSome
  floored  : (byteAt v 8).getLsbD 1 = r.floor.isSome
  leasing  : (byteAt v 8).getLsbD 2 = r.lease?.isSome
  waiting  : (byteAt v 8).getLsbD 3 = r.wait?.isSome
  live     : (byteAt v 8).getLsbD 4 = r.isLive
  powered  : (byteAt v 8).getLsbD 5 = r.powered
  noticed  : (byteAt v 8).getLsbD 6 = r.notice?.isSome
  retired  : (byteAt v 8).getLsbD 7 = r.reason?.isSome
  floor    : halfAt v 9 = BitVec.ofNat 16 (r.floor.getD 0)
  term     : quadAt v 11 = BitVec.ofNat 32 (r.leaseLength?.getD 0)
  lease    : quadAt v 15 = r.lease?.getD 0
  wait     : quadAt v 19 = r.wait?.getD 0
  tag      : halfAt v 23 = r.tag
  required : halfAt v 25 = BitVec.ofNat 16 ((r.notice?.map Notice.required).getD 0)
  deadline : quadAt v 27 = (r.notice?.map Notice.deadline).getD 0
  busy     : byteAt v 31 = BitVec.ofNat 8 ((r.notice?.map Notice.busy).getD 0)
  reason   : byteAt v 32 = BitVec.ofNat 8 ((r.reason?.map Reason.code).getD 0)
  kinds    : byteAt v 33 = BitVec.ofNat 8 r.kinds.code

/-- The notice (Table 51). -/
structure NoticeLayout (i : SlotId) (r : Record) (s : State) (v : List Byte) : Prop where
  length   : v.length = 13
  handle   : halfAt v 0 = currentHandle i s
  tag      : halfAt v 2 = r.tag
  kinds    : byteAt v 4 = BitVec.ofNat 8 r.kinds.code
  state    : byteAt v 5 = BitVec.ofNat 8 r.phase.code
  amount   : halfAt v 6 = BitVec.ofNat 16 r.amount
  powered  : (byteAt v 8).getLsbD 0 = r.powered
  noticed  : (byteAt v 8).getLsbD 1 = r.notice?.isSome
  retired  : (byteAt v 8).getLsbD 2 = r.reason?.isSome
  flags    : (byteAt v 8).toNat < 8
  required : halfAt v 9 = BitVec.ofNat 16 ((r.notice?.map Notice.required).getD 0)
  allowed  : byteAt v 11 = BitVec.ofNat 8 ((r.notice?.map fun n => s.settings.busyLimit - n.busy).getD 0)
  reason   : byteAt v 12 = BitVec.ofNat 8 ((r.reason?.map Reason.code).getD 0)

/-- The client view (Table 52). -/
structure ClientLayout (c : ClientId) (o : Client) (v : List Byte) : Prop where
  length    : v.length = 13
  client    : byteAt v 0 = BitVec.ofNat 8 c.val
  session   : byteAt v 1 = if o.isOpen then 1 else 0
  quota     : halfAt v 2 = BitVec.ofNat 16 o.quota
  limit     : byteAt v 4 = BitVec.ofNat 8 o.limit
  best      : byteAt v 5 = BitVec.ofNat 8 o.best
  attention : byteAt v 6 = if o.attention then 1 else 0
  committed : halfAt v 7 = BitVec.ofNat 16 o.committed
  held      : halfAt v 9 = BitVec.ofNat 16 o.held
  occupied  : byteAt v 11 = BitVec.ofNat 8 o.occupied
  notices   : byteAt v 12 = BitVec.ofNat 8 o.notices.length

/-- The status view (Table 53). -/
structure StatusLayout (s : State) (v : List Byte) : Prop where
  length     : v.length = 26
  mode       : byteAt v 0 = BitVec.ofNat 8 s.mode.code
  shed       : byteAt v 1 = BitVec.ofNat 8 s.shed.code
  selected   : (byteAt v 2).extractLsb' 0 2 = BitVec.ofNat 2 s.selected.val
  pending    : (byteAt v 2).extractLsb' 2 2 = BitVec.ofNat 2 ((s.pendingTier.map Fin.val).getD 0)
  isPending  : (byteAt v 2).getLsbD 4 = s.pendingTier.isSome
  lines      : (byteAt v 2).extractLsb' 5 2 = BitVec.ofNat 2 s.tierLines.val
  safeN      : (byteAt v 2).getLsbD 7 = s.safePin
  budget     : halfAt v 3 = BitVec.ofNat 16 s.budget
  committed  : quadAt v 5 = BitVec.ofNat 32 s.committed
  relief     : quadAt v 9 = BitVec.ofNat 32 s.relief
  reserve    : halfAt v 13 = BitVec.ofNat 16 s.settings.reserve0
  waiting    : byteAt v 15 = BitVec.ofNat 8 s.waitQueue.length
  free       : byteAt v 16 = BitVec.ofNat 8 (freeSlots s)
  flags      : byteAt v 17 = s.flags.setWidth 8
  tick       : quadAt v 18 = s.tick
  rejected   : byteAt v 22 = BitVec.ofNat 8 s.clientPort.rejected
  overruns   : byteAt v 23 = BitVec.ofNat 8 s.clientPort.overruns
  rejectedM  : byteAt v 24 = BitVec.ofNat 8 s.managementPort.rejected
  overrunsM  : byteAt v 25 = BitVec.ofNat 8 s.managementPort.overruns

/-- The channel view (Table 54). -/
structure ChannelLayout (n : ChannelId) (x : Channel) (s : State) (v : List Byte) : Prop where
  length     : v.length = 15
  channel    : byteAt v 0 = BitVec.ofNat 8 n.val
  state      : byteAt v 1 = BitVec.ofNat 8 x.state.code
  sum        : halfAt v 2 = BitVec.ofNat 16 x.sum
  live       : byteAt v 4 = BitVec.ofNat 8 x.live
  queued     : byteAt v 5 = BitVec.ofNat 8 x.queued
  tombstones : byteAt v 6 = BitVec.ofNat 8
    ((List.finRange 64).countP fun i =>
      (s.slot i).record.any fun r => decide (r.channel = n) && r.isRetired)
  count      : byteAt v 7 = BitVec.ofNat 8 x.faultCount
  cause      : byteAt v 8 = BitVec.ofNat 8 x.cause.code
  timer      : byteAt v 9 = BitVec.ofNat 8 ((x.timer.map fun t => t.1.code).getD 0)
  deadline   : quadAt v 10 = (x.timer.map Prod.snd).getD 0
  en         : (byteAt v 14).getLsbD 0 = x.en
  pg         : (byteAt v 14).getLsbD 1 = x.pg
  fltN       : (byteAt v 14).getLsbD 2 = x.fltN
  lines      : (byteAt v 14).toNat < 8

/-! ## Sums over the grant table (1.5) -/

/-- The sum over all slots of what `f` gives for a slot's record; 0 for a FREE slot. -/
def sumOver (f : Record → Nat) (s : State) : Nat :=
  ((List.finRange 64).map fun i => ((s.slot i).record.map f).getD 0).sum

/-- The amount of a live record, 0 of another. -/
def Record.liveAmount (r : Record) : Nat := if r.isLive then r.amount else 0

/-- The amount of a live or QUEUED record, 0 of a tombstone. -/
def Record.heldAmount (r : Record) : Nat := if r.isLive || r.isQueued then r.amount else 0

/-- The relief of a NOTICED record, 0 of another (R79). -/
def Record.reliefAmount (r : Record) : Nat := (r.notice?.map (reliefOf r.amount)).getD 0

/-- `v` where `b` holds, else 0. -/
def only (b : Bool) (v : Nat) : Nat := if b then v else 0

/-- Every sum and count that the grant table and the shed engine keep is the one taken over the records
(R10, R16, R17, R79). -/
structure SumsExact (s : State) : Prop where
  committed : s.committed = sumOver Record.liveAmount s
  relief    : s.relief = sumOver Record.reliefAmount s
  sum       : ∀ n, (s.channel n).sum = sumOver (fun r => only (decide (r.channel = n)) r.liveAmount) s
  live      : ∀ n, (s.channel n).live = sumOver (fun r => only (decide (r.channel = n) && r.isLive) 1) s
  queued    : ∀ n, (s.channel n).queued = sumOver (fun r => only (decide (r.channel = n) && r.isQueued) 1) s
  client    : ∀ c, (s.client c).committed = sumOver (fun r => only (decide (r.owner = c)) r.liveAmount) s
  held      : ∀ c, (s.client c).held = sumOver (fun r => only (decide (r.owner = c)) r.heldAmount) s
  occupied  : ∀ c, (s.client c).occupied = sumOver (fun r => only (decide (r.owner = c)) 1) s

/-! ## Collections -/

/-- The list holds exactly the slots whose record satisfies `f`, each once. -/
structure Holds (f : Record → Bool) (l : List SlotId) (s : State) : Prop where
  once    : l.Nodup
  exactly : ∀ i, i ∈ l ↔ (s.slot i).record.any f = true

/-- The admission list holds exactly the live records (R19), the wait queue exactly the QUEUED ones, by class
(R63), and the shed list exactly the NOTICED ones (R80), each once; the wait queue has at most 16 places. -/
structure CollectionsExact (s : State) : Prop where
  admission : Holds Record.isLive s.admission s
  waitQueue : Holds Record.isQueued s.waitQueue s
  byClass   : s.waitQueue.Pairwise fun i j => classOf s i ≤ classOf s j
  atMost    : s.waitQueue.length ≤ 16
  shedList  : Holds (fun r => r.notice?.isSome) s.shedList s

/-- A client's notice queue holds exactly its records with pending kinds, each once, and RETIRED is pending
exactly, and alone, for a tombstone (R139). -/
structure NoticesExact (s : State) : Prop where
  queue   : ∀ c, Holds (fun r => decide (r.owner = c) && !r.kinds.isEmpty) (s.client c).notices s
  retired : ∀ i r, (s.slot i).record = some r →
    (r.isRetired = true → r.kinds = { retired := true }) ∧ (r.kinds.retired = true → r.isRetired = true)

/-! ## The blocks -/

/-- The effective budget is the lesser of the selected tier's entry and the cap (R47), and a pending tier is
present exactly while the settle timer is armed, and differs from the selected tier (Table 16). -/
structure BudgetUnitOk (s : State) : Prop where
  budget  : s.budget = min s.settings.tierBudget[s.selected] s.settings.budgetCap
  settle  : s.pendingTier.isSome = s.settleTimer.isSome
  differs : s.pendingTier ≠ some s.selected

/-- The timer that Table 29 gives for a channel state. -/
def ChannelState.timerOk (st : ChannelState) (k : Option ChannelTimer) : Prop :=
  match st with
  | .starting => k = some .start
  | .on => k = some .clean ∨ k = none
  | .stopping => k = some .discharge
  | .faulted => k = some .cooldown
  | _ => k = none

/-- Each channel's enable line is high exactly in STARTING and ON (R106), its place holds the timer of its state
(Table 29), it is DISABLED exactly while CH_ENABLE is NO (R109), and its fault count is at most 7 (Table 30). -/
structure ChannelsOk (s : State) : Prop where
  en      : ∀ n, (s.channel n).en = decide ((s.channel n).state = .starting ∨ (s.channel n).state = .on)
  timer   : ∀ n, (s.channel n).state.timerOk ((s.channel n).timer.map Prod.fst)
  enabled : ∀ n, (s.channel n).profile.enable = decide ((s.channel n).state ≠ .disabled)
  count   : ∀ n, (s.channel n).faultCount ≤ 7

/-- Client 0's session is OPEN exactly in RUN and HOLD, with its implicit rights while OPEN (R130). -/
structure SupervisorOk (s : State) : Prop where
  session : (s.client 0).isOpen = s.mode.serves
  rights  : (s.client 0).isOpen = true →
    (s.client 0).quota = 20000 ∧ (s.client 0).limit = 16 ∧ (s.client 0).best = 0 ∧
      (s.client 0).attention = false

/-- A profile within the ranges of Table 31. -/
structure ProfileOk (x : Profile) : Prop where
  ceiling   : 1 ≤ x.ceiling ∧ x.ceiling ≤ 2500
  startTime : 1 ≤ x.startTime ∧ x.startTime ≤ 255
  discharge : x.discharge ≤ 255
  cooldown  : 10 ≤ x.cooldown ∧ x.cooldown ≤ 10000
  lockout   : 1 ≤ x.lockout ∧ x.lockout ≤ 7
  clean     : 1 ≤ x.clean ∧ x.clean ≤ 255

/-- Every setting within its range (Table 40). -/
structure SettingsOk (s : State) : Prop where
  tierBudget : ∀ k : Tier, s.settings.tierBudget[k] ≤ 20000
  budgetCap  : s.settings.budgetCap ≤ 20000
  reserve0   : s.settings.reserve0 ≤ 20000
  tierSettle : 1 ≤ s.settings.tierSettle ∧ s.settings.tierSettle ≤ 255
  noticeTime : 5 ≤ s.settings.noticeTime ∧ s.settings.noticeTime ≤ 5000
  busyLimit  : s.settings.busyLimit ≤ 3
  profiles   : ∀ n, ProfileOk (s.channel n).profile

/-- A port unit as Table 43 has it: the buffer holds a frame exactly while READY, the overrun mark is set only
while EXECUTING, a command is in flight exactly while EXECUTING, only a RENEW or a RESIZE that waits for its claim is
overtaken (R36, R76), and both counts are at most 255. -/
structure PortOk (u : PortUnit) : Prop where
  buffer   : u.state = .ready ↔ u.buffer ≠ []
  overrun  : u.overrun = true → u.state = .executing
  handed   : u.handed.isSome = true → u.state = .executing
  lost     : u.overtaken = true → (u.handed.bind changeOf).isSome = true
  reply    : u.reply.isSome = true → u.state = .executing
  flight   : u.state = .executing → u.handed.isSome = !u.reply.isSome
  rejected : u.rejected ≤ 255
  overruns : u.overruns ≤ 255

/-- Both port units are as Table 43 has them. -/
def PortsOk (s : State) : Prop := PortOk s.clientPort ∧ PortOk s.managementPort

/-! ## The part as a whole -/

/-- The lease place of a live record is armed exactly for a LEASED one (R7, R33). -/
def Record.leaseOk (r : Record) : Prop :=
  match r.phase, r.kind with
  | .live _ lease _, .leased _ => lease.isSome = true
  | .live _ lease _, .standing => lease = none
  | _, _ => True

/-- A record's fields within the ranges of Table 5: the amount, the floor below it, the lease length, the
required amount below the amount, and the busy count. -/
structure RecordOk (r : Record) : Prop where
  amount : 1 ≤ r.amount ∧ r.amount ≤ 2500
  floor  : ∀ f, r.floor = some f → 1 ≤ f ∧ f < r.amount
  length : ∀ len, r.kind = .leased len → 100 ≤ len ∧ len ≤ 600000
  lease  : r.leaseOk
  notice : ∀ n, r.notice? = some n → n.required < r.amount ∧ n.busy ≤ 3

/-- What R81 says of each shed state. -/
structure ShedOk (s : State) : Prop where
  shedding : s.shed = .shedding ↔ s.shedList ≠ []
  idle     : s.shed = .idle → s.committed ≤ s.budget
  strained : s.shed = .strained → s.budget < s.committed ∧
    ∀ i r, (s.slot i).record = some r → r.isLive = true → r.cls = 0

/-- What ties channels to their records: STARTING and ON have a live grant (R106), OFF, DISABLED, FAULTED and
LOCKED have none (Table 29), DISABLED and LOCKED have no queued record (R125), the sum is within the ceiling
(R16), and a live grant is powered exactly while its channel is ON (R8). -/
structure GrantsOk (s : State) : Prop where
  driven  : ∀ n, (s.channel n).state.drives = true → 0 < (s.channel n).live
  empty   : ∀ n, (s.channel n).state = .off ∨ (s.channel n).state = .disabled ∨ (s.channel n).state = .faulted ∨
    (s.channel n).state = .locked → (s.channel n).live = 0
  refused : ∀ n, (s.channel n).state = .disabled ∨ (s.channel n).state = .locked → (s.channel n).queued = 0
  ceiling : ∀ n, (s.channel n).sum ≤ (s.channel n).profile.ceiling
  powered : ∀ i r, (s.slot i).record = some r → r.isLive = true →
    r.powered = decide ((s.channel r.channel).state = .on)

/-- An OPEN client is within its quota and its record limit (R17), and a CLOSED entry holds nothing (R129). -/
structure ClientsOk (s : State) : Prop where
  quota  : ∀ c, (s.client c).isOpen = true →
    (s.client c).held ≤ (s.client c).quota ∧ (s.client c).occupied ≤ (s.client c).limit
  closed : ∀ c, (s.client c).isOpen = false → s.client c = Client.closed

/-- In CONFIG and SAFE every slot is FREE and no channel is STARTING or ON (R147). -/
structure ModeOk (s : State) : Prop where
  free    : s.mode.serves = false → ∀ i, (s.slot i).record = none
  stopped : s.mode.serves = false → ∀ n, (s.channel n).state.drives = false

/-- The relations that the manual says hold between claims. -/
structure Sound (s : State) : Prop where
  sums        : SumsExact s
  collections : CollectionsExact s
  notices     : NoticesExact s
  budgetUnit  : BudgetUnitOk s
  channels    : ChannelsOk s
  supervisor  : SupervisorOk s
  settings    : SettingsOk s
  records     : ∀ i r, (s.slot i).record = some r → RecordOk r
  shed        : ShedOk s
  grants      : GrantsOk s
  clients     : ClientsOk s
  mode        : ModeOk s
  ports       : PortsOk s
  lines       : LinesDriven s

end Sys2Proof.Machine
end

