-- ==== Sys2Proof/WellFormed.lean ====
section
/-! DEFINITION. Which terms of `Instr` are events the TG24 can meet. The range of a command's fields is no
matter of form: a value out of range travels in a well-formed frame and is answered RANGE (R164, R172). -/

namespace Sys2Proof

/-- The keys that have a row of their own (WRITE_TIER_BUDGET, WRITE_BUDGET_CAP, WRITE_RESERVE_0,
WRITE_EVENT_MASK, WRITE_CH_ENABLE), by the key bytes of Table 55. -/
def keysWithOwnRow : List Byte := [0x01, 0x02, 0x03, 0x07, 0x10]

/-- A term is well formed when it is one of the part's events:
a refused direction byte is neither 0x01 nor 0x02 (R162),
WRITE_SETTING stands for the keys that have no row of their own,
and ANSWER_BUSY for the answer bytes that are neither ACK nor NAK (Table 48). -/
def Instr.wellFormed : Instr → Bool
  | .directionByteRefused direction _ => direction != 0x01 && direction != 0x02
  | .answerBusy _ _ fields => fields.answer != 0 && fields.answer != 1
  | .writeSetting _ _ key _ _ => !keysWithOwnRow.contains key
  | _ => true

end Sys2Proof
end

