-- ==== Sys2Proof/Certificates/Slice0/Obligations.lean ====
section
/-! DEFINITION. The statements for the provers. -/

open Sys2Proof Sys2Proof.Machine

/-! ## The step, the frames and the time base -/

/-- A step takes the command at the front of the queue with the queue's rest. That the part idles on an empty
queue is the model's own choice (log entry 3). -/
def Obligations.StepTakesTheFront : Prop :=
  ∀ (i : Instr) (rest : List Instr) (s : State),
    step { s with pending := i :: rest } = exec i { s with pending := rest } ∧
      step { s with pending := [] } = .next { s with pending := [] }

/-- Every row of the table is taken in every state, and leaves the sender's queue alone: no command and no event
stops the part. That none does is the model's reading (log entry 25, DEDUCED) of R1, R166 and R172, which answer every
command with a result and take every event whole. -/
def Obligations.EveryRowIsTaken : Prop :=
  ∀ (i : Instr) (s : State), ∃ t, exec i s = .next t ∧ t.pending = s.pending

/-- The frame of a command passes every check of R164 and hands on that very command, whatever its fields and its
host tag (Tables 44, 48, 49). -/
def Obligations.FramesCarryTheirCommand : Prop :=
  ∀ (i : Instr) (tag : BitVec 4) (frame : List Byte), i.wellFormed = true → requestFrame tag i = some frame →
    ∃ p c code payload, commandParts i = some (p, c, code, payload) ∧ checkFrame p frame = .handsOn i

/-- The CRC as R165 gives it: its initial value, the step for one more byte, its two check values, and its place
at the end of response frames, over the length byte with its overrun mark, and of the request frames that a port
unit accepts. -/
def Obligations.CrcIsAsGiven : Prop :=
  crc [] = 0 ∧
  (∀ (bytes : List Byte) (x : Byte), crc (bytes ++ [x]) =
    crcShift (crcShift (crcShift (crcShift (crcShift (crcShift (crcShift (crcShift (crc bytes ^^^ x)))))))) ) ∧
  (∀ r : Byte, crcShift r = if r.getLsbD 7 then (r <<< 1) ^^^ 0x07 else r <<< 1) ∧
  crc [0x31, 0x32, 0x33, 0x34, 0x35, 0x36, 0x37, 0x38, 0x39] = 0xF4 ∧
  requestFrame 0 (.start .management 0) = some [0x25, 0x00, 0x00, 0x83] ∧
  (∀ (a : Reply) (echo : Byte × Byte) (overrun : Bool) (k : Nat),
    a.payload.length = k → k < 128 →
    (responseFrame a echo overrun).length = k + 5 ∧
    ((byteAt (responseFrame a echo overrun) 3).getLsbD 7 = overrun) ∧
    byteAt (responseFrame a echo overrun) (k + 4) = crc ((responseFrame a echo overrun).take (k + 4))) ∧
  (∀ (i : Instr) (tag : BitVec 4) (f : List Byte), requestFrame tag i = some f →
    byteAt f (f.length - 1) = crc (f.take (f.length - 1))) ∧
  (∀ (p : PortId) (f : List Byte), checkFrame p f ≠ .badFrame →
    byteAt f (f.length - 1) = crc (f.take (f.length - 1)))

/-- A request frame that a port unit does not refuse as BADFRAME is refused as BADFRAME once any one of its bytes
is changed (R164 checks 1 and 2, with the CRC of R165). -/
def Obligations.OneWrongByteIsRefused : Prop :=
  ∀ (p : PortId) (bytes : List Byte) (k : Nat) (b : Byte),
    k < bytes.length → byteAt bytes k ≠ b → checkFrame p bytes ≠ .badFrame →
    checkFrame p (bytes.set k b) = .badFrame

/-- TICK where no timer is due: the counter advances by one modulo 2^32, and nothing else changes. The counter
advances at every TICK, is 0 after power-on and pin reset, and no other row writes it. A timer of
length `len` set when the counter reads `t` is due exactly once `len` ticks have passed, through any wrap of the
counter, for half a turn of the counter (R26, R27, R30). -/
def Obligations.TickAdvancesTheCounter : Prop :=
  (∀ s : State, (∀ q : Place, placeDue s q = false) →
    exec .tick s =
      .next { s with tick := s.tick + 1, attn := attnCondition s, alert := alertCondition s }) ∧
  (∀ (i : Instr) (s t : State), exec i s = .next t →
    (i = .tick → t.tick = s.tick + 1) ∧
    (∀ pins, i = .powerOn pins ∨ i = .pinReset pins → t.tick = 0) ∧
    (i ≠ .tick → (∀ pins, i ≠ .powerOn pins ∧ i ≠ .pinReset pins) → t.tick = s.tick)) ∧
  (∀ (t : Tick) (len elapsed : Nat), len ≤ 600000 → elapsed < 2 ^ 31 →
    dueAt (t + BitVec.ofNat 32 elapsed) (t + BitVec.ofNat 32 len) = decide (len ≤ elapsed))

/-- Whatever is waiting, each expiry is taken before the counter advances past its deadline: after a tick no
place still holds a deadline that was due before it (R29). That it is the TICK itself that takes what is still due is
the model's mechanism (log entry 8). -/
def Obligations.TickLeavesNoExpiryBehind : Prop :=
  ∀ s t : State, Sound s → exec .tick s = .next t →
    t.tick = s.tick + 1 ∧ ∀ (q : Place) (d : Tick), deadlineOf t q = some d → dueAt s.tick d = false

/-! ## Reset -/

/-- Power-on and pin reset give every block its reset value, select the tier on the lines, and sample SAFE_N and ADDR
(R25, R26, R32, R53, R78, R104, R127, R146, R154, R171). At the reset state every relation that the manual says
holds between claims does hold, both port units are as Table 43 has them, and both attention lines are at their
conditions. -/
def Obligations.ResetsAreComplete : Prop :=
  (Sound State.reset ∧ PortsOk State.reset ∧ LinesDriven State.reset) ∧
  (∀ (pins : Pins) (s : State) (i : Instr), i = .powerOn pins ∨ i = .pinReset pins →
    ∃ t, exec i s = .next t ∧
      (∀ j, t.slot j = { gen := 0, record := none }) ∧
      t.admission = [] ∧ t.committed = 0 ∧ t.tick = 0 ∧ t.settleTimer = none ∧
      t.selected = pins.tier ∧ t.tierLines = pins.tier ∧ t.pendingTier = none ∧ t.budget = 0 ∧
      t.waitQueue = [] ∧ t.shed = .idle ∧ t.shedList = [] ∧ t.relief = 0 ∧
      (∀ n, t.channel n =
        { state := .disabled, faultCount := 0, cause := .none, timer := none,
          profile := { enable := false, ceiling := 1000, startTime := 20, discharge := 10, cooldown := 1000,
                       lockout := 3, clean := 10 },
          sum := 0, live := 0, queued := 0, en := false, pg := pins.pg.getLsbD n.val,
          fltN := pins.fltN.getLsbD n.val, sampled := none }) ∧
      (∀ c, t.client c =
        { isOpen := false, quota := 0, limit := 0, best := 0, attention := false, committed := 0, held := 0,
          occupied := 0, notices := [] }) ∧
      t.mode = .config ∧ (∀ k : Tier, t.settings.tierBudget[k] = 0) ∧ t.settings.budgetCap = 20000 ∧
      t.settings.reserve0 = 0 ∧ t.settings.tierSettle = 20 ∧ t.settings.noticeTime = 200 ∧
      t.settings.busyLimit = 1 ∧ t.settings.eventMask = 0x7F ∧ t.flags = 0 ∧
      t.safeHeld = pins.safeN ∧ t.safePin = pins.safeN ∧ t.resetSafe = !pins.safeN ∧
      t.addrPin = pins.addr ∧ t.address = (if pins.addr then 0x39 else 0x38) ∧
      (∀ p, (t.port p).state = .idle ∧ (t.port p).buffer = [] ∧ (t.port p).overrun = false ∧
        (t.port p).rejected = 0 ∧ (t.port p).overruns = 0 ∧ (t.port p).handed = none ∧
        (t.port p).overtaken = false) ∧
      t.attn = false ∧ t.alert = false ∧ t.pending = s.pending)

/-! ## What every step keeps -/

/-- The effective budget stays the lesser of the selected tier's entry and the cap, with a pending tier present
exactly while the settle timer is armed (R44, R45, R47); every setting stays within its range (Tables 31 and 40);
client 0's session stays OPEN exactly in RUN and HOLD, with its implicit rights (R130); both port units stay as
Table 43 has them. -/
def Obligations.BudgetSettingsSessionAndPortsAreKept : Prop :=
  ∀ s t : State, step s = .next t →
    (BudgetUnitOk s → BudgetUnitOk t) ∧ (SettingsOk s → SettingsOk t) ∧ (SupervisorOk s → SupervisorOk t) ∧
      (PortsOk s → PortsOk t)

/-- Each channel's enable line stays high exactly in STARTING and ON, its place holds the timer of its state, and
it is DISABLED exactly while CH_ENABLE is NO (R106, R107, R109). -/
def Obligations.ChannelsAreKept : Prop :=
  ∀ s t : State, ChannelsOk s → step s = .next t → ChannelsOk t

/-- ATTN_N stays asserted exactly while an OPEN client among clients 1 to 15 with attention enabled has a notice
waiting (R144), and ALERT_N exactly while a set flag is in EVENT_MASK or client 0 has a notice waiting (R158);
both are so at reset, where no condition holds. -/
def Obligations.AttentionLinesAreDriven : Prop :=
  let driven (t : State) :=
    (t.attn = true ↔ ∃ c : ClientId, c ≠ 0 ∧ (t.client c).isOpen = true ∧ (t.client c).attention = true ∧
      (t.client c).notices ≠ []) ∧
    (t.alert = true ↔ (∃ k, t.flags.getLsbD k = true ∧ t.settings.eventMask.getLsbD k = true) ∨
      (t.client 0).notices ≠ [])
  (∀ s t : State, driven s → step s = .next t → driven t) ∧
  (∀ (pins : Pins) (s t : State) (i : Instr), i = .powerOn pins ∨ i = .pinReset pins → exec i s = .next t →
    driven t ∧ t.attn = false ∧ t.alert = false) ∧
  driven State.reset

/-- The committed total, the relief total, every channel sum and count and every client sum and count stay equal
to what the records give (R10, R16, R17, R79). -/
def Obligations.SumsStayExact : Prop :=
  ∀ s t : State, SumsExact s → step s = .next t → SumsExact t

/-- The admission list, the wait queue and the shed list stay exactly the live, the QUEUED and the NOTICED
records, each once, the wait queue by class and never over 16 (R19, R63, R80). -/
def Obligations.CollectionsStayExact : Prop :=
  ∀ s t : State, CollectionsExact s → step s = .next t → CollectionsExact t

/-- Every notice queue stays exactly its client's records with pending kinds, each once, and RETIRED stays the
one pending kind of every tombstone and of no other record (R139). -/
def Obligations.NoticeQueuesStayExact : Prop :=
  ∀ s t : State, NoticesExact s → step s = .next t → NoticesExact t

/-- Every step keeps `Sound`: the sums and the collections of the records, the notice queues, the budget unit, the
channels and their grants, client 0's session, the ranges of the settings and of the records, the shed state, the
rights, what CONFIG and SAFE leave empty, both port units, and both attention lines. -/
def Obligations.EveryStepKeepsThePartSound : Prop :=
  ∀ s t : State, Sound s → step s = .next t → Sound t

/-- A command that is refused changes nothing: where the answer is none of OK, QUEUED, EXTENDED and REVOKED, the
records, lists, sums, channels, clients, flags, settings and the rest of the part are as they were, and the answer
carries no payload (R56, R60, R172). -/
def Obligations.RefusedCommandsChangeNothing : Prop :=
  ∀ (i : Instr) (p : PortId) (c : ClientId) (code : Byte) (payload : List Byte) (s t : State),
    commandParts i = some (p, c, code, payload) → s.resetSafe = false → exec i s = .next t →
    ∃ a, t.response = some (p, a) ∧
      (a.result ≠ .ok → a.result ≠ .queued → a.result ≠ .extended → a.result ≠ .revoked →
        a.payload = [] ∧ SamePart s t ∧ SameBody s t)

/-- The port and session tests of every command (R131, R132): a supervisor command is DENIED but from client 0 on
the management port, a client command is DENIED to client 0 on the client port, and CLOSED without an open
session. A refused command changes nothing. A RENEW or a RESIZE that was in flight when a CLOSE_CLIENT freed its record
is the exception: it meets the stale test, and is STALE (R36, R76, R4; that they and not R136 decide here is the model's
choice, log entry 29). -/
def Obligations.PortAndSessionTestsComeFirst : Prop :=
  ∀ (i : Instr) (p : PortId) (c : ClientId) (code : Byte) (payload : List Byte) (s : State),
    commandParts i = some (p, c, code, payload) → s.resetSafe = false →
    (0x20 ≤ code.toNat → ¬ (p = .management ∧ c = 0) → OnlyAnswers p i { result := .denied } s) ∧
    (code.toNat < 0x20 → p = .client → c = 0 → OnlyAnswers p i { result := .denied } s) ∧
    (code.toNat < 0x20 → clientMaySend p c = true → (s.client c).isOpen = false →
      ¬ ((changeOf i).isSome = true ∧ (s.port p).handed = some i ∧ (s.port p).overtaken = true ∧
        s.mode.serves = true) →
      OnlyAnswers p i { result := .closed } s) ∧
    (∀ h amount : Half, i = .renew p c h ∨ (i = .resize p c h amount ∧ 1 ≤ amount.toNat ∧ amount.toNat ≤ 2500) →
      clientMaySend p c = true → (s.port p).handed = some i → (s.port p).overtaken = true → s.mode.serves = true →
      h.toNat ≤ 1023 →
      (s.slot (handleSlot h)).record = none ∨ (s.slot (handleSlot h)).gen.toNat ≠ h.toNat / 64 →
      OnlyAnswers p i { result := .stale } s)

/-- The checks of RELEASE, RESIZE, RENEW and ANSWER after the port and session tests, in their order (R4): MODE
outside RUN and HOLD, RANGE for a field out of range (an answer that is none of ACK, NAK and BUSY among them, R89),
STALE for a stale handle, NOTOWNER for another client's record. -/
def Obligations.HandleChecksComeInOrder : Prop :=
  ∀ (p : PortId) (c : ClientId) (h amount : Half) (answer : Byte) (i : Instr) (s : State), ClientMayAct p c s →
    i = .release p c h ∨ i = .resize p c h amount ∨ i = .renew p c h ∨ i = .answerAck p c h ∨
      i = .answerNak p c h ∨ i = .answerBusy p c { handle := h, answer := answer } →
    (s.mode.serves = false → OnlyAnswers p i { result := .mode } s) ∧
    (s.mode.serves = true →
      (1023 < h.toNat ∨ (i = .resize p c h amount ∧ (amount = 0 ∨ 2500 < amount.toNat)) ∨
          (i = .answerBusy p c { handle := h, answer := answer } ∧ answer ≠ 2) →
        OnlyAnswers p i { result := .range } s) ∧
      (h.toNat ≤ 1023 → (i = .resize p c h amount → 1 ≤ amount.toNat ∧ amount.toNat ≤ 2500) →
        (i = .answerBusy p c { handle := h, answer := answer } → answer = 2) →
        ((s.slot (handleSlot h)).record = none ∨ (s.slot (handleSlot h)).gen.toNat ≠ h.toNat / 64 →
          OnlyAnswers p i { result := .stale } s) ∧
        (∀ j r, Names h j r s → r.owner ≠ c → OnlyAnswers p i { result := .notOwner } s)))

/-- The checks of the supervisor commands after the port test, in their order: WRITE_SETTING of every key (R108,
R156), FORCE_RETIRE (R4, R24), CLOSE_CLIENT (R134) and UNLOCK_CHANNEL (R125). -/
def Obligations.SupervisorChecksComeInOrder : Prop :=
  ∀ (p : PortId) (c : ClientId) (s : State), SupervisorMayAct p c s →
    (∀ (key index : Byte) (value : Half),
      let i := writeOf p c key index value
      (keyOf key = none → OnlyAnswers p i { result := .range } s) ∧
      (∀ k, keyOf key = some k →
        (k ≠ .eventMask → s.mode = .safe → OnlyAnswers p i { result := .mode } s) ∧
        (k = .eventMask ∨ s.mode ≠ .safe →
          ¬ (indexOk k index = true ∧ valueOk k value.toNat = true) →
          OnlyAnswers p i { result := .range } s)) ∧
      (∀ (k : ChannelKey) (n : ChannelId), keyOf key = some (.channel k) → s.mode ≠ .safe →
        index.toNat = n.val → channelValueOk k value.toNat = true →
        ((s.channel n).state.drives = true ∨ (s.channel n).state = .stopping ∨
          (s.channel n).state = .faulted ∨ ∃ j r, (s.slot j).record = some r ∧ r.channel = n) →
        OnlyAnswers p i { result := .badState } s)) ∧
    (∀ h : Half, let i := Instr.forceRetire p c h
      (s.mode.serves = false → OnlyAnswers p i { result := .mode } s) ∧
      (s.mode.serves = true → 1023 < h.toNat → OnlyAnswers p i { result := .range } s) ∧
      (s.mode.serves = true → h.toNat ≤ 1023 →
        ((s.slot (handleSlot h)).record = none ∨ (s.slot (handleSlot h)).gen.toNat ≠ h.toNat / 64) →
        OnlyAnswers p i { result := .stale } s)) ∧
    (∀ b : Byte, let i := Instr.closeClient p c b
      (s.mode = .safe → OnlyAnswers p i { result := .mode } s) ∧
      (s.mode ≠ .safe → b = 0 ∨ 15 < b.toNat → OnlyAnswers p i { result := .range } s) ∧
      (s.mode ≠ .safe → ∀ d : ClientId, d ≠ 0 → b.toNat = d.val → (s.client d).isOpen = false →
        OnlyAnswers p i { result := .badState } s)) ∧
    (∀ b : Byte, let i := Instr.unlockChannel p c b
      (s.mode = .safe → OnlyAnswers p i { result := .mode } s) ∧
      (s.mode ≠ .safe → 23 < b.toNat → OnlyAnswers p i { result := .range } s))

/-! ## REQUEST -/

/-- A REQUEST that passes its checks and fits is admitted at once: its record, every list and sum, the response,
and the first-grant report where its channel is OFF (R5, R6, R20, R33, R58, R60, R61, R62). -/
def Obligations.RequestIsAdmittedAtOnce : Prop :=
  ∀ (p : PortId) (c : ClientId) (channel : Byte) (amount : Half) (cls flags : Byte) (lease : Quad)
    (floor timeout tag : Half) (a : Ask) (i : SlotId) (s : State),
    ClientMayAct p c s → askOf channel amount cls flags lease floor timeout tag = some a →
    RequestPasses c a s → LowestFree i s → FitsNow a s →
    let powered := decide ((s.channel a.channel).state = .on)
    let due : Option Tick := match a.kind with
      | .leased len => some (s.tick + BitVec.ofNat 32 len)
      | .standing => none
    Takes p (.request p c channel amount cls flags lease floor timeout tag)
      { result := .ok
        payload := byte2 (handleOf i (s.slot i).gen) ++ byte1 (bitAt 0 powered + bitAt 1 due.isSome)
          ++ tickBytes due } s
      fun t =>
        t.slot i = { gen := (s.slot i).gen,
                     record := some { owner := c, channel := a.channel, amount := a.amount, floor := a.floor,
                                      cls := a.cls, kind := a.kind, tag := a.tag,
                                      phase := .live powered due none, kinds := {} } } ∧
        t.admission = s.admission ++ [i] ∧ t.committed = s.committed + a.amount ∧
        t.channel a.channel = (s.channel a.channel).withGrant s.tick a.amount ∧
        t.client c = { s.client c with committed := (s.client c).committed + a.amount,
                                       held := (s.client c).held + a.amount,
                                       occupied := (s.client c).occupied + 1 } ∧
        t.waitQueue = s.waitQueue ∧ ShedAndFlagsKept s t ∧
        Untouched (fun j => j = i) (fun n => n = a.channel) (fun d => d = c) s t

/-- A REQUEST that passes its checks, does not fit and may wait is queued behind every record of its class and of
better classes, with its wait deadline (R40, R59, R60, R64). -/
def Obligations.RequestIsQueued : Prop :=
  ∀ (p : PortId) (c : ClientId) (channel : Byte) (amount : Half) (cls flags : Byte) (lease : Quad)
    (floor timeout tag : Half) (a : Ask) (i : SlotId) (s : State),
    ClientMayAct p c s → s.mode.serves = true →
    askOf channel amount cls flags lease floor timeout tag = some a →
    RequestPasses c a s → LowestFree i s → ¬ FitsNow a s → a.wait = true → s.waitQueue.length < 16 →
    let due := a.timeout.map fun len => s.tick + BitVec.ofNat 32 len
    Takes p (.request p c channel amount cls flags lease floor timeout tag)
      { result := .queued
        payload := byte2 (handleOf i (s.slot i).gen) ++ byte1 (bitAt 2 due.isSome) ++ tickBytes due } s
      fun t =>
        t.slot i = { gen := (s.slot i).gen,
                     record := some { owner := c, channel := a.channel, amount := a.amount, floor := a.floor,
                                      cls := a.cls, kind := a.kind, tag := a.tag, phase := .queued due,
                                      kinds := {} } } ∧
        t.waitQueue = (s.waitQueue.filter fun j => decide (classOf s j ≤ a.cls.val)) ++ [i]
          ++ (s.waitQueue.filter fun j => decide (a.cls.val < classOf s j)) ∧
        t.channel a.channel =
          { s.channel a.channel with queued := (s.channel a.channel).queued + 1 } ∧
        t.client c = { s.client c with held := (s.client c).held + a.amount,
                                       occupied := (s.client c).occupied + 1 } ∧
        t.admission = s.admission ∧ t.committed = s.committed ∧ ShedAndFlagsKept s t ∧
        Untouched (fun j => j = i) (fun n => n = a.channel) (fun d => d = c) s t

/-- Which payloads of REQUEST are in range, and what each byte of them asks for (R55, R173, Table 49); the check order
of REQUEST; and what turns away a request that has passed it: NOROOM where it may not wait, QFULL where 16 records wait
(R56, R57, R59). -/
def Obligations.RequestIsTurnedAway : Prop :=
  ∀ (p : PortId) (c : ClientId) (channel : Byte) (amount : Half) (cls flags : Byte) (lease : Quad)
    (floor timeout tag : Half) (s : State),
    (∀ a, askOf channel amount cls flags lease floor timeout tag = some a ↔
      (channel.toNat ≤ 23 ∧ 1 ≤ amount.toNat ∧ amount.toNat ≤ 2500 ∧ cls.toNat ≤ 3 ∧ flags.toNat ≤ 0x0F ∧
        (flags.getLsbD 0 = true → 100 ≤ lease.toNat ∧ lease.toNat ≤ 600000) ∧
        (flags.getLsbD 2 = true → 1 ≤ floor.toNat ∧ floor.toNat < amount.toNat) ∧
        (flags.getLsbD 3 = true → 10 ≤ timeout.toNat ∧ timeout.toNat ≤ 60000)) ∧
      a.channel.val = channel.toNat ∧ a.amount = amount.toNat ∧ a.cls.val = cls.toNat ∧
        a.kind = (if flags.getLsbD 0 then .leased lease.toNat else .standing) ∧ a.wait = flags.getLsbD 1 ∧
        a.floor = (if flags.getLsbD 2 then some floor.toNat else none) ∧
        a.timeout = (if flags.getLsbD 3 then some timeout.toNat else none) ∧ a.tag = tag) ∧
    (s.resetSafe = false →
    let i := Instr.request p c channel amount cls flags lease floor timeout tag
    let entry := [(clientMaySend p c, Result.denied), ((s.client c).isOpen, .closed), (s.mode.serves, .mode)]
    match askOf channel amount cls flags lease floor timeout tag with
    | none => ∀ e, firstFailure (entry ++ [(false, .range)]) = some e → OnlyAnswers p i { result := e } s
    | some a =>
      let x := s.channel a.channel
      let o := s.client c
      let order := entry ++
        [(decide (o.best ≤ a.cls.val), .rights), (channelAvailable a.wait x.state, .chUnavail),
         (decide (a.amount ≤ x.profile.ceiling), .range), (decide (o.held + a.amount ≤ o.quota), .quota),
         (decide (o.occupied < o.limit), .limit),
         (decide (∃ j, (s.slot j).record = none), .tableFull)]
      (∀ e, firstFailure order = some e → OnlyAnswers p i { result := e } s) ∧
      (firstFailure order = none → ¬ FitsNow a s → a.wait = false →
        OnlyAnswers p i { result := .noRoom } s) ∧
      (firstFailure order = none → ¬ FitsNow a s → a.wait = true → 16 ≤ s.waitQueue.length →
        OnlyAnswers p i { result := .qFull } s))

/-! ## RELEASE, RESIZE and RENEW -/

/-- RELEASE of an own record that is no tombstone frees it, with the lists and the sums that counted it where no walk
follows, and with the last-grant report of its channel (R21, R11, R12, R16 to R18, R116); of a tombstone it is answered
BADSTATE. -/
def Obligations.ReleaseFreesTheRecord : Prop :=
  ∀ (p : PortId) (c : ClientId) (h : Half) (i : SlotId) (r : Record) (s : State),
    NamesOwn p c h i r s → CollectionsExact s →
    (r.isRetired = false → Takes p (.release p c h) { result := .ok } s fun t => Frees i r s t ∧ Ends i r s t) ∧
    (r.isRetired = true → OnlyAnswers p (.release p c h) { result := .badState } s)

/-- The room that a RELEASE makes reaches the head of the wait queue within the same claim, in RUN with the shed
state IDLE: where the head's channel is not FAULTED and the head fits under the ceiling and in the headroom that
the release leaves, the head is admitted (R20, R68, R69). The release of a channel's last live grant stops the
channel: STOPPING with the discharge timer set and the enable line low; with CH_DISCHARGE 0 OFF with its place empty,
where no record waits for it; and a STOPPING channel goes on (R116, R20, R106). The last-grant report of the other ends
of a record stands in AnswersThatFree, RecordsRetireWithTheirReasons and CloseClientFreesEveryRecord. -/
def Obligations.ReleasesAreHandedOn : Prop :=
  (∀ (p : PortId) (c : ClientId) (h : Half) (i j : SlotId) (r q : Record) (rest : List SlotId) (s : State),
    NamesOwn p c h i r s → r.isActive = true → s.mode = .run → s.shed = .idle → s.waitQueue = j :: rest →
    (s.slot j).record = some q → q.isQueued = true → (s.channel q.channel).state ≠ .faulted →
    (s.channel q.channel).sum - (if q.channel = r.channel then r.amount else 0) + q.amount
      ≤ (s.channel q.channel).profile.ceiling →
    (s.committed - r.amount) + q.amount + (if q.cls = 0 then 0 else s.settings.reserve0) ≤ s.budget →
    Takes p (.release p c h) { result := .ok } s (WasAdmitted j q)) ∧
  (∀ (p : PortId) (c : ClientId) (h : Half) (i : SlotId) (r : Record) (s : State),
    NamesOwn p c h i r s → r.isLive = true → (s.channel r.channel).state.drives = true →
    (s.channel r.channel).live = 1 → (s.channel r.channel).profile.discharge ≠ 0 →
    Takes p (.release p c h) { result := .ok } s fun t =>
      (t.channel r.channel).state = .stopping ∧ (t.channel r.channel).en = false ∧
      (t.channel r.channel).timer =
        some (.discharge, s.tick + BitVec.ofNat 32 (s.channel r.channel).profile.discharge)) ∧
  (∀ (p : PortId) (c : ClientId) (h : Half) (i : SlotId) (r : Record) (s : State),
    NamesOwn p c h i r s → r.isLive = true → (s.channel r.channel).live = 1 →
    Takes p (.release p c h) { result := .ok } s fun t =>
      Stops s r.channel (s.channel r.channel) (t.channel r.channel))

/-- RESIZE of an ACTIVE record to a lower amount lowers it, and drops a floor that is no longer below it; the record
is exactly that, unless the evaluation that STRAINED asks for gives it a notice; its owner's held power falls by the
difference, and so do the committed total, the channel sum and the client committed where no walk follows. To its
present amount it changes nothing; of a record that is not ACTIVE it is answered BADSTATE (R7, R18, R72, R73). -/
def Obligations.ResizeDownLowersTheAmount : Prop :=
  ∀ (p : PortId) (c : ClientId) (h amount : Half) (i : SlotId) (r : Record) (s : State),
    NamesOwn p c h i r s → 1 ≤ amount.toNat → amount.toNat ≤ 2500 →
    (r.isActive = false → OnlyAnswers p (.resize p c h amount) { result := .badState } s) ∧
    (r.isActive = true → amount.toNat = r.amount →
      OnlyAnswers p (.resize p c h amount) { result := .ok, payload := byte2 r.amount } s) ∧
    (r.isActive = true → amount.toNat < r.amount →
      let r' := { r with amount := amount.toNat, floor := r.floor.filter (fun f => decide (f < amount.toNat)) }
      Takes p (.resize p c h amount) { result := .ok, payload := byte2 amount.toNat } s fun t =>
        Reamounts i r r' s t ∧ Becomes i r r' s t)

/-- RESIZE of an ACTIVE record to a higher amount: it passes the tests of R74 in their order, and then raises the
amount with every sum and moves the record to the newest end of the admission list (R74, R75). -/
def Obligations.ResizeUpRaisesTheAmount : Prop :=
  ∀ (p : PortId) (c : ClientId) (h amount : Half) (i : SlotId) (r : Record) (s : State),
    NamesOwn p c h i r s → r.isActive = true → r.amount < amount.toNat → amount.toNat ≤ 2500 →
    (∀ e, firstFailure (growthTests r amount.toNat s) = some e →
      OnlyAnswers p (.resize p c h amount) { result := e } s) ∧
    (firstFailure (growthTests r amount.toNat s) = none →
      Takes p (.resize p c h amount) { result := .ok, payload := byte2 amount.toNat } s fun t =>
        t.slot i = { gen := (s.slot i).gen,
                     record := some { r with amount := amount.toNat,
                                             floor := r.floor.filter (fun f => decide (f < amount.toNat)) } } ∧
        t.admission = (s.admission.filter fun j => decide (j ≠ i)) ++ [i] ∧
        t.committed = s.committed - r.amount + amount.toNat ∧
        t.channel r.channel =
          { s.channel r.channel with sum := (s.channel r.channel).sum - r.amount + amount.toNat } ∧
        t.client c = { s.client c with committed := (s.client c).committed - r.amount + amount.toNat,
                                       held := (s.client c).held - r.amount + amount.toNat } ∧
        t.waitQueue = s.waitQueue ∧ ShedAndFlagsKept s t ∧
        Untouched (fun j => j = i) (fun n => n = r.channel) (fun d => d = c) s t)

/-- RENEW of a live LEASED record sets its lease deadline to now plus its lease length and answers it; of any
other record it is answered BADSTATE (R35). -/
def Obligations.RenewMovesTheLease : Prop :=
  ∀ (p : PortId) (c : ClientId) (h : Half) (i : SlotId) (r : Record) (s : State), NamesOwn p c h i r s →
    (∀ (powered : Bool) (lease : Option Tick) (notice : Option Notice) (len : Nat),
      r.phase = .live powered lease notice → r.kind = .leased len →
      let due := s.tick + BitVec.ofNat 32 len
      Takes p (.renew p c h) { result := .ok, payload := byte4 due.toNat } s fun t =>
        t.slot i = { gen := (s.slot i).gen,
                     record := some { r with phase := .live powered (some due) notice } } ∧
        ListsKept s t ∧ Untouched (fun j => j = i) (fun _ => False) (fun _ => False) s t) ∧
    (r.isLive = false ∨ r.kind = .standing → OnlyAnswers p (.renew p c h) { result := .badState } s)

/-! ## ANSWER -/

/-- ANSWER ACK with a required amount above 0: the notice ends, the amount becomes the required amount, and an unread
REDUCE leaves the pending set; the record is exactly that, unless the evaluation within the claim chooses it again and
gives it a new notice, which it does not where projected is at or below the effective budget. The owner's held power
falls by the difference, and so do the committed total, the channel sum and the client committed where no walk follows
(R90, R18, R83, R138). -/
def Obligations.AckReducesTheGrant : Prop :=
  ∀ (p : PortId) (c : ClientId) (h : Half) (i : SlotId) (r : Record) (n : Notice) (powered : Bool)
    (lease : Option Tick) (s : State),
    NamesOwn p c h i r s → r.phase = .live powered lease (some n) → 0 < n.required →
    let r' := { r with amount := n.required, floor := r.floor.filter (fun f => decide (f < n.required)),
                       phase := .live powered lease none, kinds := { r.kinds with reduce := false } }
    Takes p (.answerAck p c h) { result := .ok, payload := byte2 n.required } s fun t =>
      Reamounts i r r' s t ∧ Becomes i r r' s t ∧
      (SumsExact s → n.required < r.amount → projected s ≤ s.budget →
        t.slot i = { gen := (s.slot i).gen, record := some r' })

/-- The answers that free a NOTICED record: ACK with a required amount of 0, NAK, and BUSY at or beyond the busy
limit, each with the lists and sums that counted the record where no walk follows, and with the last-grant report of
its channel (R90, R91, R92, R11, R12, R116). -/
def Obligations.AnswersThatFree : Prop :=
  ∀ (p : PortId) (c : ClientId) (h : Half) (i : SlotId) (r : Record) (n : Notice) (s : State),
    NamesOwn p c h i r s → r.notice? = some n → CollectionsExact s →
    let ends (t : State) := Frees i r s t ∧ Ends i r s t
    (n.required = 0 →
      Takes p (.answerAck p c h) { result := .ok, payload := byte2 0 } s ends) ∧
    Takes p (.answerNak p c h) { result := .revoked } s ends ∧
    (s.settings.busyLimit ≤ n.busy →
      Takes p (.answerBusy p c { handle := h, answer := 2 }) { result := .revoked } s ends)

/-- ANSWER BUSY below the busy limit: the busy count rises by one, the notice timer is set to now plus
NOTICE_TIME, and nothing else changes (R92). -/
def Obligations.BusyExtendsTheNotice : Prop :=
  ∀ (p : PortId) (c : ClientId) (h : Half) (i : SlotId) (r : Record) (n : Notice) (powered : Bool)
    (lease : Option Tick) (s : State),
    NamesOwn p c h i r s → r.phase = .live powered lease (some n) → n.busy < s.settings.busyLimit →
    let due := s.tick + BitVec.ofNat 32 s.settings.noticeTime
    let again : Notice := { required := n.required, deadline := due, busy := n.busy + 1 }
    Takes p (.answerBusy p c { handle := h, answer := 2 })
      { result := .extended, payload := byte4 due.toNat ++ byte1 (s.settings.busyLimit - (n.busy + 1)) } s
      fun t =>
        t.slot i = { gen := (s.slot i).gen,
                     record := some { r with phase := .live powered lease (some again) } } ∧
        ListsKept s t ∧ Untouched (fun j => j = i) (fun _ => False) (fun _ => False) s t

/-- An ANSWER to a record that is not NOTICED is answered TOOLATE by a tombstone of reason REVOKED_TIMEOUT and
BADSTATE by any other record, and changes nothing (R89, R96). -/
def Obligations.LateAnswersAreRefused : Prop :=
  ∀ (p : PortId) (c : ClientId) (h : Half) (i : SlotId) (r : Record) (a : Instr) (s : State),
    a = .answerAck p c h ∨ a = .answerNak p c h ∨ a = .answerBusy p c { handle := h, answer := 2 } →
    NamesOwn p c h i r s → r.notice? = none →
    (r.phase = .retired .revokedTimeout → OnlyAnswers p a { result := .tooLate } s) ∧
    (r.phase ≠ .retired .revokedTimeout → OnlyAnswers p a { result := .badState } s)

/-! ## Views -/

/-- QUERY answers the grant view of the record, byte by byte as Table 50 lays it out, to the owner and to client
0; it is taken in CONFIG, RUN and HOLD, and changes nothing (R22, R174). Before that it is RANGE for a handle above
1023, STALE for a stale handle, and NOTOWNER to any other client (R4, R22). -/
def Obligations.QueryReturnsTheGrantView : Prop :=
  ∀ (p : PortId) (c : ClientId) (h : Half) (s : State), ClientMayAct p c s → s.mode ≠ .safe →
    (1023 < h.toNat → OnlyAnswers p (.query p c h) { result := .range } s) ∧
    (h.toNat ≤ 1023 → (s.slot (handleSlot h)).record = none ∨ (s.slot (handleSlot h)).gen.toNat ≠ h.toNat / 64 →
      OnlyAnswers p (.query p c h) { result := .stale } s) ∧
    ∀ (i : SlotId) (r : Record), Names h i r s →
    (c = 0 ∨ r.owner = c →
      ∃ v, OnlyAnswers p (.query p c h) { result := .ok, payload := v } s ∧ GrantLayout i r s v) ∧
    (c ≠ 0 → r.owner ≠ c → OnlyAnswers p (.query p c h) { result := .notOwner } s)

/-- LIST answers how many records match from the first slot on, and the handles of the first 16 of them in slot
order; a filter outside its range is RANGE, and a client that filters by another client is NOTOWNER (R23). -/
def Obligations.ListReturnsTheMatches : Prop :=
  ∀ (p : PortId) (c : ClientId) (filters client channel first : Byte) (s : State),
    ClientMayAct p c s → s.mode ≠ .safe →
    let byClient := filters.getLsbD 0
    let byChannel := filters.getLsbD 1
    let i := Instr.list p c filters client channel first
    let inRange := decide (filters.toNat ≤ 3) && (!byClient || decide (client.toNat ≤ 15))
      && (!byChannel || decide (channel.toNat ≤ 23)) && decide (first.toNat ≤ 63)
    let selects : Record → Bool := fun r =>
      (if byClient then decide (r.owner.val = client.toNat) else decide (c = 0) || decide (r.owner = c))
        && (!byChannel || decide (r.channel.val = channel.toNat))
    let found := (List.finRange 64).filter fun j =>
      decide (first.toNat ≤ j.val) && (s.slot j).record.any selects
    (inRange = false → OnlyAnswers p i { result := .range } s) ∧
    (inRange = true → c ≠ 0 → byClient = true → client.toNat ≠ c.val →
      OnlyAnswers p i { result := .notOwner } s) ∧
    (inRange = true → c = 0 ∨ byClient = false ∨ client.toNat = c.val →
      OnlyAnswers p i
        { result := .ok
          payload := byte1 found.length ++ (found.take 16).flatMap fun j => halfBytes (currentHandle j s) } s)

/-- NEXT_NOTICE delivers the head of the client's notice queue, laid out as Table 51: a record that stays has its
pending set emptied and leaves the queue, a tombstone is reaped; an empty queue answers OK without a payload
(R15, R140, R141, R175). -/
def Obligations.NextNoticeDeliversTheHead : Prop :=
  ∀ (p : PortId) (c : ClientId) (s : State), ClientMayAct p c s → s.mode ≠ .safe → NoticesExact s →
    ((s.client c).notices = [] → OnlyAnswers p (.nextNotice p c) { result := .ok } s) ∧
    (∀ (i : SlotId) (rest : List SlotId) (r : Record),
      (s.client c).notices = i :: rest → (s.slot i).record = some r →
      ∃ v, NoticeLayout i r s v ∧
        Takes p (.nextNotice p c) { result := .ok, payload := v } s fun t =>
          ListsKept s t ∧ Untouched (fun j => j = i) (fun _ => False) (fun d => d = c) s t ∧
          (r.isRetired = false →
            t.slot i = { gen := (s.slot i).gen, record := some { r with kinds := {} } } ∧
            t.client c = { s.client c with notices := rest }) ∧
          (r.isRetired = true →
            t.slot i = { gen := (s.slot i).gen + 1, record := none } ∧
            t.client c = { s.client c with notices := rest, occupied := (s.client c).occupied - 1 }))

/-- CLIENT_STATUS answers the client view of the target, laid out as Table 52: a client may ask for itself alone,
client 0 for any (R143). READ_STATUS and READ_CHANNEL answer their views, laid out as Tables 53 and 54, in every
controller state (R126, R160, R170, R176). None changes anything. -/
def Obligations.StatusViewsAreReturned : Prop :=
  (∀ (p : PortId) (c : ClientId) (target : Option Byte) (s : State), ClientMayAct p c s → s.mode ≠ .safe →
    let i := Instr.clientStatus p c target
    (∀ d : ClientId, (target = none ∧ d = c) ∨ (∃ b, target = some b ∧ b.toNat = d.val) →
      (c = 0 ∨ d = c → ∃ v, OnlyAnswers p i { result := .ok, payload := v } s ∧ ClientLayout d (s.client d) v) ∧
      (c ≠ 0 → d ≠ c → OnlyAnswers p i { result := .notOwner } s)) ∧
    (∀ b, target = some b → 15 < b.toNat → OnlyAnswers p i { result := .range } s)) ∧
  (∀ (p : PortId) (c : ClientId) (s : State), SupervisorMayAct p c s →
    (∃ v, OnlyAnswers p (.readStatus p c) { result := .ok, payload := v } s ∧ StatusLayout s v) ∧
    (∀ (b : Byte) (n : ChannelId), b.toNat = n.val →
      ∃ v, OnlyAnswers p (.readChannel p c b) { result := .ok, payload := v } s ∧
        ChannelLayout n (s.channel n) s v) ∧
    (∀ b : Byte, 23 < b.toNat → OnlyAnswers p (.readChannel p c b) { result := .range } s))

/-- READ_SETTING answers the value of each key of Table 55 at each of its indexes, in every controller state, and
RANGE for an index outside them and for an unknown key (R155, R177). -/
def Obligations.ReadSettingReturnsTheValue : Prop :=
  ∀ (p : PortId) (c : ClientId) (index : Byte) (s : State), SupervisorMayAct p c s →
    let gives (key : Byte) (v : Nat) :=
      OnlyAnswers p (.readSetting p c key index) { result := .ok, payload := halfBytes (BitVec.ofNat 16 v) } s
    let refuses (key : Byte) := OnlyAnswers p (.readSetting p c key index) { result := .range } s
    (∀ k : Tier, index.toNat = k.val → gives 0x01 s.settings.tierBudget[k]) ∧
    (3 < index.toNat → refuses 0x01) ∧
    (index = 0 → gives 0x02 s.settings.budgetCap ∧ gives 0x03 s.settings.reserve0 ∧
      gives 0x04 s.settings.tierSettle ∧ gives 0x05 s.settings.noticeTime ∧
      gives 0x06 s.settings.busyLimit ∧ gives 0x07 s.settings.eventMask.toNat) ∧
    (index ≠ 0 → refuses 0x02 ∧ refuses 0x03 ∧ refuses 0x04 ∧ refuses 0x05 ∧ refuses 0x06 ∧ refuses 0x07) ∧
    (∀ n : ChannelId, index.toNat = n.val →
      gives 0x10 (if (s.channel n).profile.enable then 1 else 0) ∧ gives 0x11 (s.channel n).profile.ceiling ∧
      gives 0x12 (s.channel n).profile.startTime ∧ gives 0x13 (s.channel n).profile.discharge ∧
      gives 0x14 (s.channel n).profile.cooldown ∧ gives 0x15 (s.channel n).profile.lockout ∧
      gives 0x16 (s.channel n).profile.clean) ∧
    (23 < index.toNat → refuses 0x10 ∧ refuses 0x11 ∧ refuses 0x12 ∧ refuses 0x13 ∧ refuses 0x14 ∧
      refuses 0x15 ∧ refuses 0x16) ∧
    (∀ key : Byte, key = 0 ∨ (0x08 ≤ key.toNat ∧ key.toNat ≤ 0x0F) ∨ 0x17 ≤ key.toNat → refuses key)

/-! ## Sessions and retirement -/

/-- OPEN_CLIENT in its check order, and the session it opens with its rights (R133). -/
def Obligations.OpenClientOpensTheSession : Prop :=
  ∀ (p : PortId) (c : ClientId) (client : Byte) (quota : Half) (limit best attention : Byte) (s : State),
    s.resetSafe = false →
    let i := Instr.openClient p c client quota limit best attention
    let d : ClientId := Fin.ofNat 16 client.toNat
    let order :=
      [(decide (p = .management ∧ c = 0), Result.denied), (decide (s.mode ≠ .safe), .mode),
       (decide (1 ≤ client.toNat ∧ client.toNat ≤ 15 ∧ quota.toNat ≤ 20000 ∧ 1 ≤ limit.toNat ∧
          limit.toNat ≤ 16 ∧ best.toNat ≤ 3 ∧ attention.toNat ≤ 1), .range),
       (!(s.client d).isOpen, .badState)]
    (∀ e, firstFailure order = some e → OnlyAnswers p i { result := e } s) ∧
    (firstFailure order = none → Takes p i { result := .ok } s fun t =>
      t.client d = { s.client d with isOpen := true, quota := quota.toNat, limit := limit.toNat,
                                     best := best.toNat, attention := decide (attention.toNat = 1) } ∧
      ListsKept s t ∧ Untouched (fun _ => False) (fun _ => False) (fun b => b = d) s t)

/-- CLOSE_CLIENT frees every record of the client, tombstones included, closes its entry, and answers how many
records it freed and what the client held; a channel whose live grants it frees all is stopped by one last-grant
report, and a channel with live grants of others goes on (R134, R135, R116). A RENEW or a RESIZE of the client that a port
has handed on and that names one of those records is overtaken by the close and is then answered STALE (R36, R76); any
other client command of the client is then answered CLOSED (R136). That R36 and R76 decide for those two and R136 for
the others is the model's choice (log entry 29). -/
def Obligations.CloseClientFreesEveryRecord : Prop :=
  ∀ (p : PortId) (c : ClientId) (client : Byte) (d : ClientId) (s : State),
    SupervisorMayAct p c s → s.mode ≠ .safe → client.toNat = d.val → d ≠ 0 → (s.client d).isOpen = true →
    CollectionsExact s →
    let mine : SlotId → Prop := fun j => ∃ r, (s.slot j).record = some r ∧ r.owner = d
    let count := (List.finRange 64).countP fun j => (s.slot j).record.any fun r => decide (r.owner = d)
    ∃ t, exec (.closeClient p c client) s = .next t ∧
        Answered p (.closeClient p c client)
          { result := .ok, payload := byte1 count ++ byte2 (s.client d).held } (overtake d s) t ∧
        LinesDriven t ∧
        (∀ (q : PortId) (h amount : Half) (k : Instr) (j : SlotId) (r : Record), (s.port q).handed = some k →
          k = .renew q d h ∨ (k = .resize q d h amount ∧ 1 ≤ amount.toNat ∧ amount.toNat ≤ 2500) →
          Names h j r s → r.owner = d → s.mode.serves = true →
          t.port q = { s.port q with overtaken := true } ∧ OnlyAnswers q k { result := .stale } t) ∧
        (∀ q : PortId, (∀ (k : Instr) (h : Half) (j : SlotId) (r : Record), (s.port q).handed = some k →
            changeOf k = some (d, h) → Names h j r s → r.owner ≠ d) →
          (overtake d s).port q = s.port q) ∧
        (∀ (q : PortId) (k : Instr) (code : Byte) (payload : List Byte),
          commandParts k = some (q, d, code, payload) → code.toNat < 0x20 →
          (t.port q).overtaken = false ∨ (t.port q).handed ≠ some k →
          OnlyAnswers q k { result := .closed } t) ∧
        (∀ j, mine j → t.slot j = { gen := (s.slot j).gen + 1, record := none } ∧ InNoList j t) ∧
        t.client d = Client.closed ∧
        (∀ b, b ≠ d → RightsKept (s.client b) (t.client b) ∧ (t.client b).held = (s.client b).held ∧
          (t.client b).occupied = (s.client b).occupied) ∧
        (∀ j, ¬ mine j → SlotMoves (s.slot j) (t.slot j)) ∧
        (∀ n, ChannelKept (s.channel n) (t.channel n)) ∧ SamePart s t ∧
        (∀ n, let mineOn := (List.finRange 64).countP fun j => (s.slot j).record.any fun r =>
            decide (r.owner = d) && decide (r.channel = n) && r.isLive
          (0 < mineOn → (s.channel n).live = mineOn → Stops s n (s.channel n) (t.channel n)) ∧
          (mineOn < (s.channel n).live → GoesOn (s.channel n) (t.channel n)))

/-- FORCE_RETIRE, and a lease, wait or notice expiry that is due, retire the record with their reasons
(R13, R24, R37, R66, R95), with the lists and sums that counted it where no walk follows, and with the last-grant
report of its channel (R116); FORCE_RETIRE of a tombstone is answered BADSTATE. -/
def Obligations.RecordsRetireWithTheirReasons : Prop :=
  ∀ (i : SlotId) (r : Record) (s : State), (s.slot i).record = some r → CollectionsExact s →
    s.resetSafe = false →
    let retires (reason : Reason) (t : State) := Retires i r reason s t ∧ Ends i r s t
    (∀ (p : PortId) (c : ClientId) (h : Half), SupervisorMayAct p c s → s.mode.serves = true →
      h.toNat = handleOf i (s.slot i).gen →
      (r.isRetired = false → Takes p (.forceRetire p c h) { result := .ok } s (retires .forced)) ∧
      (r.isRetired = true → OnlyAnswers p (.forceRetire p c h) { result := .badState } s)) ∧
    (∀ (powered : Bool) (d : Tick) (n : Option Notice), r.phase = .live powered (some d) n →
      dueAt s.tick d = true → Happens (.leaseExpiry i) s (retires .leaseExpired)) ∧
    (∀ d : Tick, r.phase = .queued (some d) → dueAt s.tick d = true →
      Happens (.waitExpiry i) s (retires .waitExpired)) ∧
    (∀ n : Notice, r.notice? = some n → dueAt s.tick n.deadline = true →
      Happens (.noticeExpiry i) s (retires .revokedTimeout))

/-! ## Settings -/

/-- An accepted write of TIER_BUDGET or BUDGET_CAP recomputes the effective budget, and a change of it is followed
by a shed evaluation within the same claim, so that the shed state is the one R87 gives for the new budget; an
unchanged budget hands nothing on (R47, R49, R50). -/
def Obligations.BudgetWritesAreHandedOn : Prop :=
  ∀ (p : PortId) (c : ClientId) (index : Byte) (value : Half) (i : Instr) (g : Settings) (s : State),
    SupervisorMayAct p c s → s.mode ≠ .safe → BudgetUnitOk s → value.toNat ≤ 20000 →
    (∃ k : Tier, index.toNat = k.val ∧ i = .writeTierBudget p c index value ∧
      g = { s.settings with tierBudget := s.settings.tierBudget.set k value.toNat }) ∨
    (index = 0 ∧ i = .writeBudgetCap p c index value ∧ g = { s.settings with budgetCap := value.toNat }) →
    let b := min g.tierBudget[s.selected] g.budgetCap
    Takes p i { result := .ok } s fun t =>
      GrantFrame (fun _ => False) (fun _ => False) { s with settings := g, budget := b } t ∧
      SameHoldings s t ∧ (b = s.budget → SameBody s t) ∧ (b ≠ s.budget → ShedSettled t)

/-- An accepted write of RESERVE_0 stores the reserve and requests no shed evaluation; where it does not lower the
reserve nothing else changes, and where it does a queue walk may follow (R51). -/
def Obligations.ReserveWriteOnlyWalks : Prop :=
  ∀ (p : PortId) (c : ClientId) (value : Half) (s : State),
    SupervisorMayAct p c s → s.mode ≠ .safe → value.toNat ≤ 20000 →
    let g := { s.settings with reserve0 := value.toNat }
    Takes p (.writeReserve0 p c 0 value) { result := .ok } s fun t =>
      GrantFrame (fun _ => False) (fun _ => False) { s with settings := g } t ∧ SameHoldings s t ∧
      ShedAndFlagsKept s t ∧
      (s.settings.reserve0 ≤ value.toNat ∨ s.mode ≠ .run ∨ s.shed ≠ .idle → SameBody s t)

/-- Accepted writes of EVENT_MASK (in every controller state), TIER_SETTLE, NOTICE_TIME, BUSY_LIMIT and, for an
empty channel, the channel keys but CH_ENABLE: the setting takes the value and nothing else changes
(R46, R93, R108, R156, R158). -/
def Obligations.PlainWritesStoreTheirValue : Prop :=
  ∀ (p : PortId) (c : ClientId) (value : Half) (s : State), SupervisorMayAct p c s →
    let v := value.toNat
    let stores (i : Instr) (g : Settings) :=
      Takes p i { result := .ok } s fun t => SamePart { s with settings := g } t ∧ SameBody s t
    (v ≤ 0x7F →
      stores (.writeEventMask p c 0 value) { s.settings with eventMask := BitVec.ofNat 7 v }) ∧
    (s.mode ≠ .safe →
      (1 ≤ v → v ≤ 255 → stores (.writeSetting p c 0x04 0 value) { s.settings with tierSettle := v }) ∧
      (5 ≤ v → v ≤ 5000 → stores (.writeSetting p c 0x05 0 value) { s.settings with noticeTime := v }) ∧
      (v ≤ 3 → stores (.writeSetting p c 0x06 0 value) { s.settings with busyLimit := v }) ∧
      (∀ (n : ChannelId) (index : Byte), index.toNat = n.val →
        (s.channel n).state = .disabled ∨ (s.channel n).state = .off ∨ (s.channel n).state = .locked →
        (∀ j r, (s.slot j).record = some r → r.channel ≠ n) →
        let x := (s.channel n).profile
        let profiles (key : Byte) (y : Profile) :=
          Takes p (.writeSetting p c key index value) { result := .ok } s fun t =>
            t.channel n = { s.channel n with profile := y } ∧ ListsKept s t ∧
            Untouched (fun _ => False) (fun m => m = n) (fun _ => False) s t
        (1 ≤ v → v ≤ 2500 → profiles 0x11 { x with ceiling := v }) ∧
        (1 ≤ v → v ≤ 255 → profiles 0x12 { x with startTime := v }) ∧
        (v ≤ 255 → profiles 0x13 { x with discharge := v }) ∧
        (10 ≤ v → v ≤ 10000 → profiles 0x14 { x with cooldown := v }) ∧
        (1 ≤ v → v ≤ 7 → profiles 0x15 { x with lockout := v }) ∧
        (1 ≤ v → v ≤ 255 → profiles 0x16 { x with clean := v })))

/-- An accepted write of CH_ENABLE, on a channel that is DISABLED, OFF or LOCKED and that no record names: YES
takes DISABLED to OFF, NO takes OFF and LOCKED to DISABLED with the fault count and the cause cleared, and any
other write stores the setting alone (R108, R109). -/
def Obligations.ChEnableWriteActsOnTheChannel : Prop :=
  ∀ (p : PortId) (c : ClientId) (index : Byte) (value : Half) (n : ChannelId) (s : State),
    SupervisorMayAct p c s → s.mode ≠ .safe → index.toNat = n.val → value.toNat ≤ 1 →
    (s.channel n).state = .disabled ∨ (s.channel n).state = .off ∨ (s.channel n).state = .locked →
    (∀ j r, (s.slot j).record = some r → r.channel ≠ n) →
    let x := s.channel n
    let y : Channel := { x with profile := { x.profile with enable := decide (value.toNat = 1) } }
    Takes p (.writeChEnable p c index value) { result := .ok } s fun t =>
      t.channel n =
        (if value.toNat = 1 ∧ x.state = .disabled then { y with state := .off, timer := none, en := false }
         else if value.toNat = 0 ∧ x.state ≠ .disabled then
           { y with state := .disabled, timer := none, en := false, faultCount := 0, cause := .none }
         else y) ∧
      ListsKept s t ∧ Untouched (fun _ => False) (fun m => m = n) (fun _ => False) s t

/-! ## Controller states -/

/-- START from CONFIG with an enabled channel makes the controller state RUN and opens client 0's session with its
implicit rights; without an enabled channel it is RANGE (R130, R149). HOLD is taken in RUN and makes the
controller state HOLD and nothing else; RESUME is taken in HOLD, makes it RUN and triggers a queue walk, which
admits a head of the wait queue that fits where the shed state is IDLE, and changes nothing where it is not
(R150, R68, R69). -/
def Obligations.StartHoldAndResume : Prop :=
  (∀ (p : PortId) (c : ClientId) (s : State), SupervisorMayAct p c s →
    (s.mode = .safe → OnlyAnswers p (.start p c) { result := .mode } s) ∧
    (s.mode = .run ∨ s.mode = .hold → OnlyAnswers p (.start p c) { result := .badState } s) ∧
    (s.mode = .config → (∀ n, (s.channel n).profile.enable = false) →
      OnlyAnswers p (.start p c) { result := .range } s) ∧
    (s.mode = .config → (∃ n, (s.channel n).profile.enable = true) →
      Takes p (.start p c) { result := .ok } s fun t =>
        t.client 0 = { s.client 0 with isOpen := true, quota := 20000, limit := 16, best := 0,
                                       attention := false } ∧
        ListsKept s t ∧
        Untouched (fun _ => False) (fun _ => False) (fun d => d = 0) { s with mode := .run } t)) ∧
  (∀ (p : PortId) (c : ClientId) (s : State), SupervisorMayAct p c s →
    (s.mode = .run → Takes p (.hold p c) { result := .ok } s fun t =>
      SamePart { s with mode := .hold } t ∧ SameBody s t) ∧
    (s.mode = .hold → Takes p (.resume p c) { result := .ok } s fun t =>
      GrantFrame (fun _ => False) (fun _ => False) { s with mode := .run } t ∧ SameHoldings s t ∧
      ShedAndFlagsKept s t ∧ (s.shed ≠ .idle → SameBody s t) ∧
      (∀ (j : SlotId) (q : Record) (rest : List SlotId), s.shed = .idle → s.waitQueue = j :: rest →
        (s.slot j).record = some q → q.isQueued = true → (s.channel q.channel).state ≠ .faulted →
        (s.channel q.channel).sum + q.amount ≤ (s.channel q.channel).profile.ceiling →
        s.committed + q.amount + (if q.cls = 0 then 0 else s.settings.reserve0) ≤ s.budget →
        WasAdmitted j q t)) ∧
    (s.mode = .hold → OnlyAnswers p (.hold p c) { result := .badState } s) ∧
    (s.mode = .run → OnlyAnswers p (.resume p c) { result := .badState } s) ∧
    (s.mode = .config ∨ s.mode = .safe → OnlyAnswers p (.hold p c) { result := .mode } s ∧
      OnlyAnswers p (.resume p c) { result := .mode } s))

/-- The safe entries: ENTER_SAFE, SAFE_N falling outside SAFE, and the entry that is due after a reset that found
SAFE_N low. Each makes the bulk clearing, the controller state SAFE, and raises SAFE_ENTERED, and keeps the other
flags (R151, R152). Where that entry is due, whichever claim comes first makes it before its own change: every command,
a settle expiry that is due, and a fall of SAFE_N (the model's way to place the entry in the first claim after release:
log entry 12). A line change that no state takes is no claim and makes no entry (R107). -/
def Obligations.SafeEntryClearsThePart : Prop :=
  ∀ s : State,
    let entered (t : State) := Cleared s t ∧ t.mode = .safe ∧ t.flags = s.flags ||| 0x40
    (∀ (p : PortId) (c : ClientId), SupervisorMayAct p c s →
      (s.mode ≠ .safe → Takes p (.enterSafe p c) { result := .ok } s fun t =>
        entered t ∧ t.safeHeld = s.safeHeld ∧ t.safePin = s.safePin ∧ t.resetSafe = false) ∧
      (s.mode = .safe → OnlyAnswers p (.enterSafe p c) { result := .mode } s)) ∧
    (s.resetSafe = false → s.mode ≠ .safe → Happens .safeNFall s fun t =>
      entered t ∧ t.safeHeld = false ∧ t.safePin = false ∧ t.resetSafe = false) ∧
    (s.resetSafe = true → Happens .resetSafeEntry s fun t =>
      entered t ∧ t.safeHeld = s.safeHeld ∧ t.safePin = s.safePin ∧ t.resetSafe = false) ∧
    (s.resetSafe = true → ∃ u : State, entered u ∧ SamePorts s u ∧
      u.safeHeld = s.safeHeld ∧ u.safePin = s.safePin ∧ u.resetSafe = false ∧
      (∀ (i : Instr) (p : PortId) (c : ClientId) (code : Byte) (payload : List Byte),
        commandParts i = some (p, c, code, payload) → exec i s = exec i u) ∧
      (∀ d, s.settleTimer = some d → dueAt s.tick d = true → exec .settleExpiry s = exec .settleExpiry u) ∧
      exec .safeNFall s = exec .safeNFall u ∧ exec .safeNFall u =
        .next (driveLines { u with safeHeld := false, safePin := false }) ∧
      ∀ n : ChannelId, (s.channel n).state.drives = false → ∀ i,
        i = .powerGood n ∨ i = .powerLoss n ∨ i = .trip n ∨ i = .fltRise n →
        ∃ t, exec i s = .next t ∧ t.mode = s.mode ∧ t.resetSafe = true ∧ t.flags = s.flags)

/-- RESTART makes the bulk clearing, the controller state CONFIG, and clears every flag but SAFE_ENTERED; in SAFE
it needs the held SAFE_N level to be high, and is otherwise MODE (R151, R153). -/
def Obligations.RestartReturnsToConfig : Prop :=
  ∀ (p : PortId) (c : ClientId) (s : State), SupervisorMayAct p c s →
    (s.mode ≠ .safe ∨ s.safeHeld = true → Takes p (.restart p c) { result := .ok } s fun t =>
      Cleared s t ∧ t.mode = .config ∧ t.flags = s.flags &&& 0x40 ∧ t.safeHeld = s.safeHeld ∧
      t.safePin = s.safePin ∧ t.resetSafe = false) ∧
    (s.mode = .safe → s.safeHeld = false → OnlyAnswers p (.restart p c) { result := .mode } s)

/-- UNLOCK_CHANNEL takes a LOCKED channel to OFF with its fault count 0, and keeps its last fault cause; in any
other channel state it is BADSTATE (R125). CLEAR_EVENTS clears the named flags and leaves the others, clears the
four port counts when PORT_ERROR is named, answers the flags as they then stand, and refuses bit 7 with RANGE
(R159, R170, R177). -/
def Obligations.UnlockAndClearEvents : Prop :=
  (∀ (p : PortId) (c : ClientId) (b : Byte) (n : ChannelId) (s : State),
    SupervisorMayAct p c s → s.mode ≠ .safe → b.toNat = n.val →
    ((s.channel n).state = .locked → Takes p (.unlockChannel p c b) { result := .ok } s fun t =>
      t.channel n = { s.channel n with state := .off, timer := none, en := false, faultCount := 0 } ∧
      ListsKept s t ∧ Untouched (fun _ => False) (fun m => m = n) (fun _ => False) s t) ∧
    ((s.channel n).state ≠ .locked → OnlyAnswers p (.unlockChannel p c b) { result := .badState } s)) ∧
  (∀ (p : PortId) (c : ClientId) (flags : Byte) (s : State), SupervisorMayAct p c s →
    let left := s.flags &&& ~~~(flags.setWidth 7)
    let i := Instr.clearEvents p c flags
    (flags.getLsbD 7 = true → OnlyAnswers p i { result := .range } s) ∧
    (flags.getLsbD 7 = false → ∃ t, exec i s = .next t ∧ LinesDriven t ∧ SamePart s t ∧
      SameBody { s with flags := left } t ∧
      t.response = some (p, { result := .ok, payload := [left.setWidth 8] }) ∧
      ∀ q, (t.port q).state = (s.port q).state ∧ (t.port q).buffer = (s.port q).buffer ∧
        (t.port q).overrun = (s.port q).overrun ∧
        (t.port q).rejected = (if flags.getLsbD 5 then 0 else (s.port q).rejected) ∧
        (t.port q).overruns = (if flags.getLsbD 5 then 0 else (s.port q).overruns)))

/-! ## Port units -/

/-- The end of a write transaction that carries bytes to port `p` (R161, R164, R168, R170): while EXECUTING it is
dropped with the overrun mark and count; otherwise the frame is refused as BADFRAME or UNKNOWN with its response
and the rejected count, or its command is handed on. An ANSWER frame whose answer byte is none of ACK, NAK and
BUSY is handed on in the row ANSWER_BUSY (the model's choice, log entry 5). A write without a byte changes nothing;
that one to another I2C address changes nothing is log entry 16 (DEDUCED). On SPI the port sends 0x00 for the direction
byte and for every byte after it; on I2C it acknowledges its address and every byte written (R162, R163). -/
def Obligations.WriteTransactionIsTaken : Prop :=
  (∀ (bus : Bus) (bytes : List Byte) (s : State), portOf bus s = none →
    exec (.writeTransaction bus bytes) s = .next s) ∧
  (∀ (bus : Bus) (p : PortId) (s : State), portOf bus s = some p →
    ∃ t, exec (.writeTransaction bus []) s = .next t ∧
      t.port p = { s.port p with shifted := if bus = .spi then [0] else [], acked := if bus = .spi then 0 else 1 } ∧
      (∀ q, q ≠ p → t.port q = s.port q) ∧ t.response = s.response ∧ t.attn = s.attn ∧ t.alert = s.alert ∧
      SamePart s t ∧ SameBody s t) ∧
  ∀ (bus : Bus) (bytes : List Byte) (p : PortId) (s : State), portOf bus s = some p → bytes ≠ [] →
    let u := s.port p
    let echo := (byteAt bytes 0, byteAt bytes 1)
    let out := if bus = .spi then List.replicate (bytes.length + 1) (0 : Byte) else []
    let acks := if bus = .spi then 0 else bytes.length + 1
    let leaves (u' : PortUnit) (flags : BitVec 7) := ∃ t, exec (.writeTransaction bus bytes) s = .next t ∧
      t.port p = { u' with shifted := out, acked := acks } ∧ (∀ q, q ≠ p → t.port q = s.port q) ∧
      t.response = s.response ∧ LinesDriven t ∧ SamePart s t ∧ SameBody { s with flags := flags } t
    let refused (e : Result) :=
      leaves { u with state := .ready, buffer := responseFrame { result := e } echo false, overrun := false,
                      rejected := min 255 (u.rejected + 1), handed := none, overtaken := false, reply := none }
        (s.flags ||| 0x20)
    let accepted (i : Instr) :=
      leaves { u with state := .executing, buffer := [], overrun := false, handed := some i,
                      overtaken := false, reply := none, echo := echo } s.flags
    u.rejected ≤ 255 → u.overruns ≤ 255 →
    (u.state = .executing →
      leaves { u with overrun := true, overruns := min 255 (u.overruns + 1) } (s.flags ||| 0x20)) ∧
    (u.state ≠ .executing → checkFrame p bytes = .badFrame → refused .badFrame) ∧
    (u.state ≠ .executing → checkFrame p bytes = .unknown → refused .unknown) ∧
    (∀ i, u.state ≠ .executing → checkFrame p bytes = .handsOn i → accepted i)

/-- A read transaction returns bytes by the port state at its start: NORESPONSE for each byte when IDLE, NOTREADY
for each byte when EXECUTING, and when READY the response frame followed by zeros, after which the port is IDLE; a
read that ends before the first byte leaves the response in place (R169). On SPI the port sends 0x00 for the direction
byte first; on I2C it acknowledges its address (R162, R163). That a transaction to another I2C address changes nothing
is log entry 16 (DEDUCED). -/
def Obligations.ReadTransactionReturnsByState : Prop :=
  (∀ (bus : Bus) (count : Nat) (s : State), portOf bus s = none →
    exec (.readTransaction bus count) s = .next s) ∧
  (∀ (a : BitVec 7) (s : State), portOf (.i2c a) s = none ↔ a ≠ s.address) ∧
  ∀ (bus : Bus) (count : Nat) (p : PortId) (s : State), portOf bus s = some p →
    let u := s.port p
    let leaves (u' : PortUnit) (sent : List Byte) := ∃ t, exec (.readTransaction bus count) s = .next t ∧
      t.port p = { u' with shifted := if bus = .spi then 0 :: sent else sent,
                           acked := if bus = .spi then 0 else 1 } ∧
      (∀ q, q ≠ p → t.port q = s.port q) ∧ t.response = s.response ∧ SamePart s t ∧ SameBody s t ∧
      t.attn = s.attn ∧ t.alert = s.alert
    (u.state = .idle → leaves u (List.replicate count 0xFE)) ∧
    (u.state = .executing → leaves u (List.replicate count 0xFF)) ∧
    (u.state = .ready → count = 0 → leaves u []) ∧
    (u.state = .ready → 0 < count →
      leaves { u with state := .idle, buffer := [] } ((List.range count).map fun k => byteAt u.buffer k))

/-- The placing of a response, once the claim of the running command has been taken: the response frame is in the
buffer with the overrun mark as it stood, the port is READY and the mark is clear. A refused SPI direction byte
counts as rejected, raises PORT_ERROR and leaves the port state (R162, R167, R170). The row that a transaction on the
wires presents: on SPI its direction byte picks write, read or refusal, a partial byte is discarded, and one that ends
before a whole direction byte presents nothing; on I2C its direction bit picks write or read (R162, R163). -/
def Obligations.ResponsesAndDirectionBytes : Prop :=
  ∀ s : State,
    (∀ (p : PortId) (a : Reply), (s.port p).state = .executing → (s.port p).handed = none →
      (s.port p).reply = some a →
      ∃ t, exec (.responsePlaced p) s = .next t ∧
        t.port p = { s.port p with state := .ready, overrun := false, reply := none,
                                   buffer := responseFrame a (s.port p).echo (s.port p).overrun } ∧
        (∀ q, q ≠ p → t.port q = s.port q) ∧ SamePart s t ∧ SameBody s t) ∧
    (∀ (d : Byte) (count : Nat), d ≠ 0x01 → d ≠ 0x02 → s.clientPort.rejected ≤ 255 →
      ∃ t, exec (.directionByteRefused d count) s = .next t ∧ LinesDriven t ∧
        t.clientPort = { s.clientPort with rejected := min 255 (s.clientPort.rejected + 1),
                                           shifted := List.replicate (count + 1) 0, acked := 0 } ∧
        t.managementPort = s.managementPort ∧ SamePart s t ∧
        SameBody { s with flags := s.flags ||| 0x20 } t) ∧
    (∀ bits : Fin 8, present (.spi [] bits) s = s) ∧
    (let put (i : Instr) : State := { s with pending := s.pending ++ [i] }
    (∀ (d : Byte) (bytes : List Byte) (bits : Fin 8),
      (d = 0x01 → present (.spi (d :: bytes) bits) s = put (.writeTransaction .spi bytes)) ∧
      (d = 0x02 → present (.spi (d :: bytes) bits) s = put (.readTransaction .spi bytes.length)) ∧
      (d ≠ 0x01 → d ≠ 0x02 → present (.spi (d :: bytes) bits) s = put (.directionByteRefused d bytes.length))) ∧
    (∀ (a : BitVec 7) (bytes : List Byte),
      present (.i2c a 0 bytes) s = put (.writeTransaction (.i2c a) bytes) ∧
      present (.i2c a 1 bytes) s = put (.readTransaction (.i2c a) bytes.length)))

/-! ## Channels -/

/-- A fault of channel `n`: a trip in STARTING or ON, a loss of power-good in ON, a start timeout that is due in
STARTING, and a trip found by the sample at the entry to STARTING. The channel counts the fault, takes its cause
and enters FAULTED with its cooldown timer, or LOCKED at the lockout count; every live grant of it becomes a
tombstone CHANNEL_FAULT, every queued record of a locked channel a tombstone CHANNEL_LOCKED, the queued records of
a FAULTED channel stay queued, and CHANNEL_FAULT (and CHANNEL_LOCKED) are raised (R114, R119, R120, R121). -/
def Obligations.FaultsEndTheGrants : Prop :=
  ∀ (n : ChannelId) (i : Instr) (cause : Cause) (s : State), s.resetSafe = false →
    (i = .trip n ∧ cause = .trip ∧ (s.channel n).state.drives = true) ∨
    (i = .powerLoss n ∧ cause = .powerLost ∧ (s.channel n).state = .on) ∨
    (i = .startTimeout n ∧ cause = .startTimeout ∧ (s.channel n).state = .starting ∧
      ∃ d, (s.channel n).timer = some (.start, d) ∧ dueAt s.tick d = true) ∨
    (i = .sampledLineEvent n ∧ cause = .trip ∧ (s.channel n).state.drives = true ∧
      (s.channel n).sampled = some .trip) →
    let x := s.channel n
    let count := min 7 (x.faultCount + 1)
    Happens i s fun t =>
      (t.channel n).faultCount = count ∧ (t.channel n).cause = cause ∧ (t.channel n).en = false ∧
      (t.channel n).profile = x.profile ∧
      (x.profile.lockout ≤ count → (t.channel n).state = .locked ∧ (t.channel n).timer = none) ∧
      (count < x.profile.lockout → (t.channel n).state = .faulted ∧
        (t.channel n).timer = some (.cooldown, s.tick + BitVec.ofNat 32 x.profile.cooldown)) ∧
      (t.channel n).pg = (x.pg && decide (i ≠ .powerLoss n)) ∧
      (t.channel n).fltN = (x.fltN && decide (i ≠ .trip n)) ∧
      (∀ j r, (s.slot j).record = some r → r.channel = n → r.isLive = true →
        t.slot j = { gen := (s.slot j).gen,
                     record := some { r with phase := .retired .channelFault, kinds := { retired := true } } }) ∧
      (∀ j r, (s.slot j).record = some r → r.channel = n → r.isQueued = true → x.profile.lockout ≤ count →
        t.slot j = { gen := (s.slot j).gen,
                     record := some { r with phase := .retired .channelLocked, kinds := { retired := true } } }) ∧
      (∀ j r, (s.slot j).record = some r → r.channel = n → r.isQueued = true → count < x.profile.lockout →
        t.slot j = s.slot j ∧ (j ∈ s.waitQueue → j ∈ t.waitQueue)) ∧
      t.flags.getLsbD 3 = true ∧ (x.profile.lockout ≤ count → t.flags.getLsbD 4 = true) ∧
      (count < x.profile.lockout → t.flags.getLsbD 4 = s.flags.getLsbD 4) ∧
      GrantFrame (fun j => ∃ r, (s.slot j).record = some r ∧ r.channel = n) (fun m => m = n) s t

/-- A power-good taken in STARTING, from the line or from the sample at the entry to STARTING: the channel is ON
with its clean timer set, and every live grant of it is powered and has READY pending in place of ADMITTED; the
fault count and every sum stay (R8, R113, R137). -/
def Obligations.PowerGoodPowersTheGrants : Prop :=
  ∀ (n : ChannelId) (i : Instr) (s : State), s.resetSafe = false → (s.channel n).state = .starting →
    i = .powerGood n ∨ (i = .sampledLineEvent n ∧ (s.channel n).sampled = some .powerGood) →
    let x := s.channel n
    Happens i s fun t =>
      t.channel n = { x with state := .on, en := true,
                             timer := some (.clean, s.tick + BitVec.ofNat 32 (x.profile.clean * 1000)),
                             pg := x.pg || decide (i = .powerGood n),
                             sampled := if i = .powerGood n then x.sampled else none } ∧
      (∀ j r powered lease notice, (s.slot j).record = some r → r.channel = n →
        r.phase = .live powered lease notice →
        t.slot j = { gen := (s.slot j).gen,
                     record := some { r with phase := .live true lease notice,
                                             kinds := { r.kinds with admitted := false, ready := true } } }) ∧
      (∀ c, RightsKept (s.client c) (t.client c) ∧ (t.client c).committed = (s.client c).committed ∧
        (t.client c).held = (s.client c).held ∧ (t.client c).occupied = (s.client c).occupied ∧
        ∀ j, j ∈ (t.client c).notices ↔ j ∈ (s.client c).notices ∨
          ∃ r, (s.slot j).record = some r ∧ r.channel = n ∧ r.isLive = true ∧ r.owner = c ∧
            r.kinds.isEmpty = true) ∧
      ListsKept s t ∧
      Untouched (fun j => ∃ r, (s.slot j).record = some r ∧ r.channel = n ∧ r.isLive = true)
        (fun m => m = n) (fun _ => True) s t

/-- The other channel timers, when due. Discharge: the channel leaves STOPPING for STARTING when it has live grants,
with its start timer set and its lines sampled, and for OFF when it has none. Cooldown: FAULTED becomes OFF, unless
the queue walk within the claim starts it again, and a head of the wait queue that fits is admitted. Clean: the fault
count becomes 0 and the channel stays ON (R118, R123, R124). -/
def Obligations.ChannelTimersExpire : Prop :=
  ∀ (n : ChannelId) (d : Tick) (s : State), s.resetSafe = false → dueAt s.tick d = true →
    let x := s.channel n
    let only (t : State) := ListsKept s t ∧ Untouched (fun _ => False) (fun m => m = n) (fun _ => False) s t
    (x.timer = some (.discharge, d) → x.state = .stopping → Happens (.dischargeExpiry n) s fun t =>
      only t ∧ t.channel n = if x.live = 0 then { x with state := .off, timer := none, en := false }
        else x.startedAt s.tick) ∧
    (x.timer = some (.cooldown, d) → x.state = .faulted → Happens (.cooldownExpiry n) s fun t =>
      GrantFrame (fun _ => False) (fun _ => False) s t ∧ SameHoldings s t ∧ ShedAndFlagsKept s t ∧
      ((t.channel n).state = .off ∧ (t.channel n).en = false ∧ (t.channel n).timer = none ∨
        (t.channel n).state = .starting ∧ (t.channel n).en = true ∧
          (t.channel n).timer = some (.start, s.tick + BitVec.ofNat 32 x.profile.startTime)) ∧
      (s.mode ≠ .run ∨ s.shed ≠ .idle ∨ s.waitQueue = [] →
        only t ∧ t.channel n = { x with state := .off, timer := none, en := false }) ∧
      (∀ (j : SlotId) (q : Record) (rest : List SlotId), s.mode = .run → s.shed = .idle →
        s.waitQueue = j :: rest → (s.slot j).record = some q → q.isQueued = true →
        q.channel = n ∨ (s.channel q.channel).state ≠ .faulted →
        (s.channel q.channel).sum + q.amount ≤ (s.channel q.channel).profile.ceiling →
        s.committed + q.amount + (if q.cls = 0 then 0 else s.settings.reserve0) ≤ s.budget →
        WasAdmitted j q t ∧ (q.channel = n → x.live = 0 → (t.channel n).state = .starting))) ∧
    (x.timer = some (.clean, d) → x.state = .on →
      ∃ t, exec (.cleanExpiry n) s = .next t ∧ SamePorts s t ∧ only t ∧
        t.channel n = { x with faultCount := 0, timer := none })

/-! ## Supply tiers -/

/-- A line change: a value other than the selected tier becomes the pending tier and sets the settle timer to now
plus TIER_SETTLE; a return to the selected tier removes the pending tier and cancels the timer; the selected tier,
the effective budget and the event flags stay (R44). A settle expiry that is due: the pending tier is selected,
TIER_CHANGED is raised, the effective budget is recomputed, and a change of it is followed by a shed evaluation
within the same claim (R45, R47, R49). -/
def Obligations.TierLinesSettle : Prop :=
  (∀ (v : Tier) (s : State), ∃ t, exec (.lineChange v) s = .next t ∧ SamePorts s t ∧ SameBody s t ∧
    t.tierLines = v ∧ t.selected = s.selected ∧ t.budget = s.budget ∧
    (v ≠ s.selected → t.pendingTier = some v ∧
      t.settleTimer = some (s.tick + BitVec.ofNat 32 s.settings.tierSettle)) ∧
    (v = s.selected → t.pendingTier = none ∧ t.settleTimer = none) ∧
    SamePart { s with tierLines := t.tierLines, pendingTier := t.pendingTier, settleTimer := t.settleTimer } t) ∧
  (∀ (v : Tier) (d : Tick) (s : State), s.resetSafe = false → s.pendingTier = some v →
    s.settleTimer = some d → dueAt s.tick d = true →
    let b := min s.settings.tierBudget[v] s.settings.budgetCap
    Happens .settleExpiry s fun t =>
      GrantFrame (fun _ => False) (fun _ => False)
        { s with selected := v, pendingTier := none, settleTimer := none, budget := b,
                 flags := s.flags ||| 0x01 } t ∧
      SameHoldings s t ∧ (b = s.budget → SameBody { s with flags := s.flags ||| 0x01 } t) ∧
      (b ≠ s.budget → ShedSettled t))

/-- Line events that a state ignores change the level alone: PGn rising outside STARTING, PGn falling outside ON,
FLTn_N falling outside STARTING and ON, and FLTn_N rising (R110, R119); they make no claim, so this holds whether or not
a safe entry of a reset is due (R107). SAFE_N rising, and SAFE_N falling in SAFE, change the two SAFE_N levels alone
(R152). -/
def Obligations.IgnoredEventsChangeTheLevelAlone : Prop :=
  ∀ (n : ChannelId) (s : State),
    let x := s.channel n
    let level (i : Instr) (y : Channel) := ∃ t, exec i s = .next t ∧ SamePorts s t ∧ t.channel n = y ∧
      ListsKept s t ∧ Untouched (fun _ => False) (fun m => m = n) (fun _ => False) s t
    (x.state ≠ .starting → level (.powerGood n) { x with pg := true }) ∧
    (x.state ≠ .on → level (.powerLoss n) { x with pg := false }) ∧
    (x.state.drives = false → level (.trip n) { x with fltN := false }) ∧
    level (.fltRise n) { x with fltN := true } ∧
    (∃ t, exec .safeNRise s = .next t ∧ SamePorts s t ∧ SameBody s t ∧
      SamePart { s with safeHeld := true, safePin := true } t) ∧
    (s.resetSafe = false → s.mode = .safe → ∃ t, exec .safeNFall s = .next t ∧ SamePorts s t ∧ SameBody s t ∧
      SamePart { s with safeHeld := false, safePin := false } t)

/-! ## Notices, the shed evaluation and the queue walk -/

/-- A kind posted to a record: the merging into its pending set, row by row, that a kind posted to a set that
already holds it leaves the set unchanged (for the sets that the rows can give), and the record's place in its
owner's notice queue: appended at the newest end where the set was empty, removed where it becomes empty, and kept
otherwise (R137, R139). Nothing else changes. -/
def Obligations.PostedKindsMerge : Prop :=
  ∀ (i : SlotId) (r : Record) (kind : NoticeKind) (s : State), (s.slot i).record = some r →
    let t := post i kind s
    let k := r.kinds
    ∃ k' : KindSet,
      (kind = .admitted → k' = { k with admitted := true }) ∧
      (kind = .ready → k' = { k with admitted := false, ready := true }) ∧
      (kind = .reduce → k' = { k with withdrawn := false, reduce := true }) ∧
      (kind = .withdrawn → k.reduce = true → k' = { k with reduce := false }) ∧
      (kind = .withdrawn → k.reduce = false → k' = { k with withdrawn := true }) ∧
      (kind = .retired → k' = { admitted := false, ready := false, reduce := false, withdrawn := false,
                                retired := true }) ∧
      ((kind = .admitted ∧ k.admitted = true) ∨ (kind = .ready ∧ k.ready = true ∧ k.admitted = false) ∨
        (kind = .reduce ∧ k.reduce = true ∧ k.withdrawn = false) ∨
        (kind = .withdrawn ∧ k.withdrawn = true ∧ k.reduce = false) ∨
        (kind = .retired ∧ k = { retired := true }) → k' = k) ∧
      t.slot i = { gen := (s.slot i).gen, record := some { r with kinds := k' } } ∧
      t.client r.owner = { s.client r.owner with notices :=
        if k'.isEmpty then (s.client r.owner).notices.filter fun j => decide (j ≠ i)
        else if k.isEmpty then (s.client r.owner).notices ++ [i] else (s.client r.owner).notices } ∧
      ListsKept s t ∧ Untouched (fun j => j = i) (fun _ => False) (fun c => c = r.owner) s t

/-- An evaluation that finds projected above the budget posts REDUCE to the candidates in the order of R83 and
stops once projected is at or below the budget. The candidates are the ACTIVE records of classes 1 to 3, worse
classes first and newer admissions first within a class. The victims are the first of them, appended to the shed
list in that order, and where projected is still above the budget every candidate is a victim. Each is asked for
the need at the moment it is chosen where its floor allows that, and for the whole grant otherwise, with a new
notice; it keeps its amount, and every other record keeps its own (R83, R84). `evaluate` makes exactly this choice where
projected is above the budget, and beside it sets only the shed state and the event flags. -/
def Obligations.VictimsAreChosenInOrder : Prop :=
  ∀ s : State, s.admission.Nodup →
    let t := chooseVictims (candidates s) s
    (∀ j, j ∈ candidates s ↔
      j ∈ s.admission ∧ ∃ r, (s.slot j).record = some r ∧ r.isActive = true ∧ r.cls ≠ 0) ∧
    ((candidates s).Pairwise fun i j => classOf s j < classOf s i ∨
      (classOf s j = classOf s i ∧ s.admission.idxOf j < s.admission.idxOf i)) ∧
    ∃ k, t.shedList = s.shedList ++ (candidates s).take k ∧
      (k = (candidates s).length ∨ projected t ≤ s.budget) ∧
      (∀ m, m < k → s.budget < projected (chooseVictims ((candidates s).take m) s)) ∧
      (∀ m j, m < k → (candidates s)[m]? = some j →
        let need := projected (chooseVictims ((candidates s).take m) s) - s.budget
        ∃ r powered lease, (s.slot j).record = some r ∧ r.phase = .live powered lease none ∧
          t.slot j = { gen := (s.slot j).gen,
                       record := some { r with
                         phase := .live powered lease (some
                           { required := match r.floor with
                               | some f => if f + need ≤ r.amount then r.amount - need else 0
                               | none => 0
                             deadline := s.tick + BitVec.ofNat 32 s.settings.noticeTime
                             busy := 0 })
                         kinds := { r.kinds with withdrawn := false, reduce := true } } }) ∧
      t.admission = s.admission ∧ t.committed = s.committed ∧
      (∀ c, (t.client c).committed = (s.client c).committed ∧ (t.client c).held = (s.client c).held) ∧
      (∀ n, t.channel n = s.channel n) ∧
      (∀ j, j ∉ (candidates s).take k → t.slot j = s.slot j) ∧
      (s.budget < projected s → evaluate s = { t with shed := (evaluate s).shed, flags := (evaluate s).flags })

/-- An evaluation that finds projected at or below the budget withdraws every notice that it can: it leaves
projected at or below the budget, and no notice stands whose relief would still fit (R85, R86). `evaluate` makes
exactly these withdrawals, and beside them sets only the shed state and the event flags. -/
def Obligations.EveryNoticeThatFitsIsWithdrawn : Prop :=
  ∀ s : State, s.shedList.Nodup → projected s ≤ s.budget →
    let t := withdrawFrom s.shedList.reverse s
    projected t ≤ s.budget ∧ t.committed = s.committed ∧
    (∀ j r n, j ∈ t.shedList → (t.slot j).record = some r → r.notice? = some n →
      s.budget < projected t + (r.amount - n.required)) ∧
    t.shedList.Sublist s.shedList ∧
    evaluate s = { t with shed := (evaluate s).shed, flags := (evaluate s).flags }

/-- The shed state after an evaluation is the one R87 gives for what the evaluation finds, and the two events are
raised exactly where R87 says. -/
def Obligations.EvaluationSetsTheShedState : Prop :=
  ∀ s : State,
    let t := evaluate s
    (t.shed = .idle ↔ t.shedList = [] ∧ t.committed ≤ t.budget) ∧
    (t.shed = .shedding ↔ t.shedList ≠ []) ∧
    (t.shed = .strained ↔ t.shedList = [] ∧ t.budget < t.committed) ∧
    t.flags = s.flags
      ||| (if s.shed = .idle ∧ s.shedList.length < t.shedList.length then 0x02 else 0)
      ||| (if t.shed = .strained ∧ s.shed ≠ .strained then 0x04 else 0)

/-- After a walk in RUN with the shed state IDLE, a record that still waits is one that the walk could not admit:
its channel is FAULTED, or it does not fit under its channel's ceiling, or the walk stopped at it or before it,
at a record that does not fit in the headroom of its class (R68, R69). The walk admits only into headroom, so the
committed total stays within the budget (R70). -/
def Obligations.WalkLeavesOnlyWhatCannotBeAdmitted : Prop :=
  ∀ s : State, s.mode = .run → s.shed = .idle → s.waitQueue.Nodup →
    let t := walk s
    (∀ i r, i ∈ s.waitQueue → (t.slot i).record = some r → r.isQueued = true →
      (t.channel r.channel).state = .faulted ∨
      (t.channel r.channel).profile.ceiling < (t.channel r.channel).sum + r.amount ∨
      ∃ j q, j ∈ s.waitQueue ∧ s.waitQueue.idxOf j ≤ s.waitQueue.idxOf i ∧ (t.slot j).record = some q ∧
        q.isQueued = true ∧ headroom q.cls t < q.amount) ∧
    (s.committed ≤ s.budget → t.committed ≤ t.budget) ∧
    (∀ n, (s.channel n).sum ≤ (s.channel n).profile.ceiling →
      (t.channel n).sum ≤ (t.channel n).profile.ceiling)
end

