-- ==== Sys2Proof/Laws/State.lean ====
section
/-! SUPPORT. Each field of the state after each named update: an update leaves every field but its own as it
was. -/

namespace Sys2Proof.Machine

variable (s : State)

/-! ## State.setSlot -/

@[simp] theorem State.setSlot_admission (i : SlotId) (x : Slot) :
    (s.setSlot i x).admission = s.admission := rfl
@[simp] theorem State.setSlot_committed (i : SlotId) (x : Slot) :
    (s.setSlot i x).committed = s.committed := rfl
@[simp] theorem State.setSlot_tick (i : SlotId) (x : Slot) :
    (s.setSlot i x).tick = s.tick := rfl
@[simp] theorem State.setSlot_settleTimer (i : SlotId) (x : Slot) :
    (s.setSlot i x).settleTimer = s.settleTimer := rfl
@[simp] theorem State.setSlot_selected (i : SlotId) (x : Slot) :
    (s.setSlot i x).selected = s.selected := rfl
@[simp] theorem State.setSlot_pendingTier (i : SlotId) (x : Slot) :
    (s.setSlot i x).pendingTier = s.pendingTier := rfl
@[simp] theorem State.setSlot_budget (i : SlotId) (x : Slot) :
    (s.setSlot i x).budget = s.budget := rfl
@[simp] theorem State.setSlot_waitQueue (i : SlotId) (x : Slot) :
    (s.setSlot i x).waitQueue = s.waitQueue := rfl
@[simp] theorem State.setSlot_shed (i : SlotId) (x : Slot) :
    (s.setSlot i x).shed = s.shed := rfl
@[simp] theorem State.setSlot_shedList (i : SlotId) (x : Slot) :
    (s.setSlot i x).shedList = s.shedList := rfl
@[simp] theorem State.setSlot_relief (i : SlotId) (x : Slot) :
    (s.setSlot i x).relief = s.relief := rfl
@[simp] theorem State.setSlot_channels (i : SlotId) (x : Slot) :
    (s.setSlot i x).channels = s.channels := rfl
@[simp] theorem State.setSlot_clients (i : SlotId) (x : Slot) :
    (s.setSlot i x).clients = s.clients := rfl
@[simp] theorem State.setSlot_mode (i : SlotId) (x : Slot) :
    (s.setSlot i x).mode = s.mode := rfl
@[simp] theorem State.setSlot_settings (i : SlotId) (x : Slot) :
    (s.setSlot i x).settings = s.settings := rfl
@[simp] theorem State.setSlot_flags (i : SlotId) (x : Slot) :
    (s.setSlot i x).flags = s.flags := rfl
@[simp] theorem State.setSlot_safeHeld (i : SlotId) (x : Slot) :
    (s.setSlot i x).safeHeld = s.safeHeld := rfl
@[simp] theorem State.setSlot_resetSafe (i : SlotId) (x : Slot) :
    (s.setSlot i x).resetSafe = s.resetSafe := rfl
@[simp] theorem State.setSlot_clientPort (i : SlotId) (x : Slot) :
    (s.setSlot i x).clientPort = s.clientPort := rfl
@[simp] theorem State.setSlot_managementPort (i : SlotId) (x : Slot) :
    (s.setSlot i x).managementPort = s.managementPort := rfl
@[simp] theorem State.setSlot_address (i : SlotId) (x : Slot) :
    (s.setSlot i x).address = s.address := rfl
@[simp] theorem State.setSlot_tierLines (i : SlotId) (x : Slot) :
    (s.setSlot i x).tierLines = s.tierLines := rfl
@[simp] theorem State.setSlot_safePin (i : SlotId) (x : Slot) :
    (s.setSlot i x).safePin = s.safePin := rfl
@[simp] theorem State.setSlot_addrPin (i : SlotId) (x : Slot) :
    (s.setSlot i x).addrPin = s.addrPin := rfl
@[simp] theorem State.setSlot_attn (i : SlotId) (x : Slot) :
    (s.setSlot i x).attn = s.attn := rfl
@[simp] theorem State.setSlot_alert (i : SlotId) (x : Slot) :
    (s.setSlot i x).alert = s.alert := rfl
@[simp] theorem State.setSlot_response (i : SlotId) (x : Slot) :
    (s.setSlot i x).response = s.response := rfl
@[simp] theorem State.setSlot_fresh (i : SlotId) (x : Slot) :
    (s.setSlot i x).fresh = s.fresh := rfl
@[simp] theorem State.setSlot_pending (i : SlotId) (x : Slot) :
    (s.setSlot i x).pending = s.pending := rfl

/-! ## State.setRecord -/

@[simp] theorem State.setRecord_admission (i : SlotId) (r : Record) :
    (s.setRecord i r).admission = s.admission := rfl
@[simp] theorem State.setRecord_committed (i : SlotId) (r : Record) :
    (s.setRecord i r).committed = s.committed := rfl
@[simp] theorem State.setRecord_tick (i : SlotId) (r : Record) :
    (s.setRecord i r).tick = s.tick := rfl
@[simp] theorem State.setRecord_settleTimer (i : SlotId) (r : Record) :
    (s.setRecord i r).settleTimer = s.settleTimer := rfl
@[simp] theorem State.setRecord_selected (i : SlotId) (r : Record) :
    (s.setRecord i r).selected = s.selected := rfl
@[simp] theorem State.setRecord_pendingTier (i : SlotId) (r : Record) :
    (s.setRecord i r).pendingTier = s.pendingTier := rfl
@[simp] theorem State.setRecord_budget (i : SlotId) (r : Record) :
    (s.setRecord i r).budget = s.budget := rfl
@[simp] theorem State.setRecord_waitQueue (i : SlotId) (r : Record) :
    (s.setRecord i r).waitQueue = s.waitQueue := rfl
@[simp] theorem State.setRecord_shed (i : SlotId) (r : Record) :
    (s.setRecord i r).shed = s.shed := rfl
@[simp] theorem State.setRecord_shedList (i : SlotId) (r : Record) :
    (s.setRecord i r).shedList = s.shedList := rfl
@[simp] theorem State.setRecord_relief (i : SlotId) (r : Record) :
    (s.setRecord i r).relief = s.relief := rfl
@[simp] theorem State.setRecord_channels (i : SlotId) (r : Record) :
    (s.setRecord i r).channels = s.channels := rfl
@[simp] theorem State.setRecord_clients (i : SlotId) (r : Record) :
    (s.setRecord i r).clients = s.clients := rfl
@[simp] theorem State.setRecord_mode (i : SlotId) (r : Record) :
    (s.setRecord i r).mode = s.mode := rfl
@[simp] theorem State.setRecord_settings (i : SlotId) (r : Record) :
    (s.setRecord i r).settings = s.settings := rfl
@[simp] theorem State.setRecord_flags (i : SlotId) (r : Record) :
    (s.setRecord i r).flags = s.flags := rfl
@[simp] theorem State.setRecord_safeHeld (i : SlotId) (r : Record) :
    (s.setRecord i r).safeHeld = s.safeHeld := rfl
@[simp] theorem State.setRecord_resetSafe (i : SlotId) (r : Record) :
    (s.setRecord i r).resetSafe = s.resetSafe := rfl
@[simp] theorem State.setRecord_clientPort (i : SlotId) (r : Record) :
    (s.setRecord i r).clientPort = s.clientPort := rfl
@[simp] theorem State.setRecord_managementPort (i : SlotId) (r : Record) :
    (s.setRecord i r).managementPort = s.managementPort := rfl
@[simp] theorem State.setRecord_address (i : SlotId) (r : Record) :
    (s.setRecord i r).address = s.address := rfl
@[simp] theorem State.setRecord_tierLines (i : SlotId) (r : Record) :
    (s.setRecord i r).tierLines = s.tierLines := rfl
@[simp] theorem State.setRecord_safePin (i : SlotId) (r : Record) :
    (s.setRecord i r).safePin = s.safePin := rfl
@[simp] theorem State.setRecord_addrPin (i : SlotId) (r : Record) :
    (s.setRecord i r).addrPin = s.addrPin := rfl
@[simp] theorem State.setRecord_attn (i : SlotId) (r : Record) :
    (s.setRecord i r).attn = s.attn := rfl
@[simp] theorem State.setRecord_alert (i : SlotId) (r : Record) :
    (s.setRecord i r).alert = s.alert := rfl
@[simp] theorem State.setRecord_response (i : SlotId) (r : Record) :
    (s.setRecord i r).response = s.response := rfl
@[simp] theorem State.setRecord_fresh (i : SlotId) (r : Record) :
    (s.setRecord i r).fresh = s.fresh := rfl
@[simp] theorem State.setRecord_pending (i : SlotId) (r : Record) :
    (s.setRecord i r).pending = s.pending := rfl

/-! ## State.setChannel -/

@[simp] theorem State.setChannel_slots (n : ChannelId) (x : Channel) :
    (s.setChannel n x).slots = s.slots := rfl
@[simp] theorem State.setChannel_admission (n : ChannelId) (x : Channel) :
    (s.setChannel n x).admission = s.admission := rfl
@[simp] theorem State.setChannel_committed (n : ChannelId) (x : Channel) :
    (s.setChannel n x).committed = s.committed := rfl
@[simp] theorem State.setChannel_tick (n : ChannelId) (x : Channel) :
    (s.setChannel n x).tick = s.tick := rfl
@[simp] theorem State.setChannel_settleTimer (n : ChannelId) (x : Channel) :
    (s.setChannel n x).settleTimer = s.settleTimer := rfl
@[simp] theorem State.setChannel_selected (n : ChannelId) (x : Channel) :
    (s.setChannel n x).selected = s.selected := rfl
@[simp] theorem State.setChannel_pendingTier (n : ChannelId) (x : Channel) :
    (s.setChannel n x).pendingTier = s.pendingTier := rfl
@[simp] theorem State.setChannel_budget (n : ChannelId) (x : Channel) :
    (s.setChannel n x).budget = s.budget := rfl
@[simp] theorem State.setChannel_waitQueue (n : ChannelId) (x : Channel) :
    (s.setChannel n x).waitQueue = s.waitQueue := rfl
@[simp] theorem State.setChannel_shed (n : ChannelId) (x : Channel) :
    (s.setChannel n x).shed = s.shed := rfl
@[simp] theorem State.setChannel_shedList (n : ChannelId) (x : Channel) :
    (s.setChannel n x).shedList = s.shedList := rfl
@[simp] theorem State.setChannel_relief (n : ChannelId) (x : Channel) :
    (s.setChannel n x).relief = s.relief := rfl
@[simp] theorem State.setChannel_clients (n : ChannelId) (x : Channel) :
    (s.setChannel n x).clients = s.clients := rfl
@[simp] theorem State.setChannel_mode (n : ChannelId) (x : Channel) :
    (s.setChannel n x).mode = s.mode := rfl
@[simp] theorem State.setChannel_settings (n : ChannelId) (x : Channel) :
    (s.setChannel n x).settings = s.settings := rfl
@[simp] theorem State.setChannel_flags (n : ChannelId) (x : Channel) :
    (s.setChannel n x).flags = s.flags := rfl
@[simp] theorem State.setChannel_safeHeld (n : ChannelId) (x : Channel) :
    (s.setChannel n x).safeHeld = s.safeHeld := rfl
@[simp] theorem State.setChannel_resetSafe (n : ChannelId) (x : Channel) :
    (s.setChannel n x).resetSafe = s.resetSafe := rfl
@[simp] theorem State.setChannel_clientPort (n : ChannelId) (x : Channel) :
    (s.setChannel n x).clientPort = s.clientPort := rfl
@[simp] theorem State.setChannel_managementPort (n : ChannelId) (x : Channel) :
    (s.setChannel n x).managementPort = s.managementPort := rfl
@[simp] theorem State.setChannel_address (n : ChannelId) (x : Channel) :
    (s.setChannel n x).address = s.address := rfl
@[simp] theorem State.setChannel_tierLines (n : ChannelId) (x : Channel) :
    (s.setChannel n x).tierLines = s.tierLines := rfl
@[simp] theorem State.setChannel_safePin (n : ChannelId) (x : Channel) :
    (s.setChannel n x).safePin = s.safePin := rfl
@[simp] theorem State.setChannel_addrPin (n : ChannelId) (x : Channel) :
    (s.setChannel n x).addrPin = s.addrPin := rfl
@[simp] theorem State.setChannel_attn (n : ChannelId) (x : Channel) :
    (s.setChannel n x).attn = s.attn := rfl
@[simp] theorem State.setChannel_alert (n : ChannelId) (x : Channel) :
    (s.setChannel n x).alert = s.alert := rfl
@[simp] theorem State.setChannel_response (n : ChannelId) (x : Channel) :
    (s.setChannel n x).response = s.response := rfl
@[simp] theorem State.setChannel_fresh (n : ChannelId) (x : Channel) :
    (s.setChannel n x).fresh = s.fresh := rfl
@[simp] theorem State.setChannel_pending (n : ChannelId) (x : Channel) :
    (s.setChannel n x).pending = s.pending := rfl

/-! ## State.setClient -/

@[simp] theorem State.setClient_slots (c : ClientId) (x : Client) :
    (s.setClient c x).slots = s.slots := rfl
@[simp] theorem State.setClient_admission (c : ClientId) (x : Client) :
    (s.setClient c x).admission = s.admission := rfl
@[simp] theorem State.setClient_committed (c : ClientId) (x : Client) :
    (s.setClient c x).committed = s.committed := rfl
@[simp] theorem State.setClient_tick (c : ClientId) (x : Client) :
    (s.setClient c x).tick = s.tick := rfl
@[simp] theorem State.setClient_settleTimer (c : ClientId) (x : Client) :
    (s.setClient c x).settleTimer = s.settleTimer := rfl
@[simp] theorem State.setClient_selected (c : ClientId) (x : Client) :
    (s.setClient c x).selected = s.selected := rfl
@[simp] theorem State.setClient_pendingTier (c : ClientId) (x : Client) :
    (s.setClient c x).pendingTier = s.pendingTier := rfl
@[simp] theorem State.setClient_budget (c : ClientId) (x : Client) :
    (s.setClient c x).budget = s.budget := rfl
@[simp] theorem State.setClient_waitQueue (c : ClientId) (x : Client) :
    (s.setClient c x).waitQueue = s.waitQueue := rfl
@[simp] theorem State.setClient_shed (c : ClientId) (x : Client) :
    (s.setClient c x).shed = s.shed := rfl
@[simp] theorem State.setClient_shedList (c : ClientId) (x : Client) :
    (s.setClient c x).shedList = s.shedList := rfl
@[simp] theorem State.setClient_relief (c : ClientId) (x : Client) :
    (s.setClient c x).relief = s.relief := rfl
@[simp] theorem State.setClient_channels (c : ClientId) (x : Client) :
    (s.setClient c x).channels = s.channels := rfl
@[simp] theorem State.setClient_mode (c : ClientId) (x : Client) :
    (s.setClient c x).mode = s.mode := rfl
@[simp] theorem State.setClient_settings (c : ClientId) (x : Client) :
    (s.setClient c x).settings = s.settings := rfl
@[simp] theorem State.setClient_flags (c : ClientId) (x : Client) :
    (s.setClient c x).flags = s.flags := rfl
@[simp] theorem State.setClient_safeHeld (c : ClientId) (x : Client) :
    (s.setClient c x).safeHeld = s.safeHeld := rfl
@[simp] theorem State.setClient_resetSafe (c : ClientId) (x : Client) :
    (s.setClient c x).resetSafe = s.resetSafe := rfl
@[simp] theorem State.setClient_clientPort (c : ClientId) (x : Client) :
    (s.setClient c x).clientPort = s.clientPort := rfl
@[simp] theorem State.setClient_managementPort (c : ClientId) (x : Client) :
    (s.setClient c x).managementPort = s.managementPort := rfl
@[simp] theorem State.setClient_address (c : ClientId) (x : Client) :
    (s.setClient c x).address = s.address := rfl
@[simp] theorem State.setClient_tierLines (c : ClientId) (x : Client) :
    (s.setClient c x).tierLines = s.tierLines := rfl
@[simp] theorem State.setClient_safePin (c : ClientId) (x : Client) :
    (s.setClient c x).safePin = s.safePin := rfl
@[simp] theorem State.setClient_addrPin (c : ClientId) (x : Client) :
    (s.setClient c x).addrPin = s.addrPin := rfl
@[simp] theorem State.setClient_attn (c : ClientId) (x : Client) :
    (s.setClient c x).attn = s.attn := rfl
@[simp] theorem State.setClient_alert (c : ClientId) (x : Client) :
    (s.setClient c x).alert = s.alert := rfl
@[simp] theorem State.setClient_response (c : ClientId) (x : Client) :
    (s.setClient c x).response = s.response := rfl
@[simp] theorem State.setClient_fresh (c : ClientId) (x : Client) :
    (s.setClient c x).fresh = s.fresh := rfl
@[simp] theorem State.setClient_pending (c : ClientId) (x : Client) :
    (s.setClient c x).pending = s.pending := rfl

/-! ## raise -/

@[simp] theorem raise_slots (f : EventFlag) :
    (raise f s).slots = s.slots := rfl
@[simp] theorem raise_admission (f : EventFlag) :
    (raise f s).admission = s.admission := rfl
@[simp] theorem raise_committed (f : EventFlag) :
    (raise f s).committed = s.committed := rfl
@[simp] theorem raise_tick (f : EventFlag) :
    (raise f s).tick = s.tick := rfl
@[simp] theorem raise_settleTimer (f : EventFlag) :
    (raise f s).settleTimer = s.settleTimer := rfl
@[simp] theorem raise_selected (f : EventFlag) :
    (raise f s).selected = s.selected := rfl
@[simp] theorem raise_pendingTier (f : EventFlag) :
    (raise f s).pendingTier = s.pendingTier := rfl
@[simp] theorem raise_budget (f : EventFlag) :
    (raise f s).budget = s.budget := rfl
@[simp] theorem raise_waitQueue (f : EventFlag) :
    (raise f s).waitQueue = s.waitQueue := rfl
@[simp] theorem raise_shed (f : EventFlag) :
    (raise f s).shed = s.shed := rfl
@[simp] theorem raise_shedList (f : EventFlag) :
    (raise f s).shedList = s.shedList := rfl
@[simp] theorem raise_relief (f : EventFlag) :
    (raise f s).relief = s.relief := rfl
@[simp] theorem raise_channels (f : EventFlag) :
    (raise f s).channels = s.channels := rfl
@[simp] theorem raise_clients (f : EventFlag) :
    (raise f s).clients = s.clients := rfl
@[simp] theorem raise_mode (f : EventFlag) :
    (raise f s).mode = s.mode := rfl
@[simp] theorem raise_settings (f : EventFlag) :
    (raise f s).settings = s.settings := rfl
@[simp] theorem raise_safeHeld (f : EventFlag) :
    (raise f s).safeHeld = s.safeHeld := rfl
@[simp] theorem raise_resetSafe (f : EventFlag) :
    (raise f s).resetSafe = s.resetSafe := rfl
@[simp] theorem raise_clientPort (f : EventFlag) :
    (raise f s).clientPort = s.clientPort := rfl
@[simp] theorem raise_managementPort (f : EventFlag) :
    (raise f s).managementPort = s.managementPort := rfl
@[simp] theorem raise_address (f : EventFlag) :
    (raise f s).address = s.address := rfl
@[simp] theorem raise_tierLines (f : EventFlag) :
    (raise f s).tierLines = s.tierLines := rfl
@[simp] theorem raise_safePin (f : EventFlag) :
    (raise f s).safePin = s.safePin := rfl
@[simp] theorem raise_addrPin (f : EventFlag) :
    (raise f s).addrPin = s.addrPin := rfl
@[simp] theorem raise_attn (f : EventFlag) :
    (raise f s).attn = s.attn := rfl
@[simp] theorem raise_alert (f : EventFlag) :
    (raise f s).alert = s.alert := rfl
@[simp] theorem raise_response (f : EventFlag) :
    (raise f s).response = s.response := rfl
@[simp] theorem raise_fresh (f : EventFlag) :
    (raise f s).fresh = s.fresh := rfl
@[simp] theorem raise_pending (f : EventFlag) :
    (raise f s).pending = s.pending := rfl

/-! ## driveLines -/

@[simp] theorem driveLines_slots :
    (driveLines s).slots = s.slots := rfl
@[simp] theorem driveLines_admission :
    (driveLines s).admission = s.admission := rfl
@[simp] theorem driveLines_committed :
    (driveLines s).committed = s.committed := rfl
@[simp] theorem driveLines_tick :
    (driveLines s).tick = s.tick := rfl
@[simp] theorem driveLines_settleTimer :
    (driveLines s).settleTimer = s.settleTimer := rfl
@[simp] theorem driveLines_selected :
    (driveLines s).selected = s.selected := rfl
@[simp] theorem driveLines_pendingTier :
    (driveLines s).pendingTier = s.pendingTier := rfl
@[simp] theorem driveLines_budget :
    (driveLines s).budget = s.budget := rfl
@[simp] theorem driveLines_waitQueue :
    (driveLines s).waitQueue = s.waitQueue := rfl
@[simp] theorem driveLines_shed :
    (driveLines s).shed = s.shed := rfl
@[simp] theorem driveLines_shedList :
    (driveLines s).shedList = s.shedList := rfl
@[simp] theorem driveLines_relief :
    (driveLines s).relief = s.relief := rfl
@[simp] theorem driveLines_channels :
    (driveLines s).channels = s.channels := rfl
@[simp] theorem driveLines_clients :
    (driveLines s).clients = s.clients := rfl
@[simp] theorem driveLines_mode :
    (driveLines s).mode = s.mode := rfl
@[simp] theorem driveLines_settings :
    (driveLines s).settings = s.settings := rfl
@[simp] theorem driveLines_flags :
    (driveLines s).flags = s.flags := rfl
@[simp] theorem driveLines_safeHeld :
    (driveLines s).safeHeld = s.safeHeld := rfl
@[simp] theorem driveLines_resetSafe :
    (driveLines s).resetSafe = s.resetSafe := rfl
@[simp] theorem driveLines_clientPort :
    (driveLines s).clientPort = s.clientPort := rfl
@[simp] theorem driveLines_managementPort :
    (driveLines s).managementPort = s.managementPort := rfl
@[simp] theorem driveLines_address :
    (driveLines s).address = s.address := rfl
@[simp] theorem driveLines_tierLines :
    (driveLines s).tierLines = s.tierLines := rfl
@[simp] theorem driveLines_safePin :
    (driveLines s).safePin = s.safePin := rfl
@[simp] theorem driveLines_addrPin :
    (driveLines s).addrPin = s.addrPin := rfl
@[simp] theorem driveLines_response :
    (driveLines s).response = s.response := rfl
@[simp] theorem driveLines_fresh :
    (driveLines s).fresh = s.fresh := rfl
@[simp] theorem driveLines_pending :
    (driveLines s).pending = s.pending := rfl

/-! ## nextOrder -/

@[simp] theorem nextOrder_slots :
    (nextOrder s).slots = s.slots := rfl
@[simp] theorem nextOrder_admission :
    (nextOrder s).admission = s.admission := rfl
@[simp] theorem nextOrder_committed :
    (nextOrder s).committed = s.committed := rfl
@[simp] theorem nextOrder_tick :
    (nextOrder s).tick = s.tick := rfl
@[simp] theorem nextOrder_settleTimer :
    (nextOrder s).settleTimer = s.settleTimer := rfl
@[simp] theorem nextOrder_selected :
    (nextOrder s).selected = s.selected := rfl
@[simp] theorem nextOrder_pendingTier :
    (nextOrder s).pendingTier = s.pendingTier := rfl
@[simp] theorem nextOrder_budget :
    (nextOrder s).budget = s.budget := rfl
@[simp] theorem nextOrder_waitQueue :
    (nextOrder s).waitQueue = s.waitQueue := rfl
@[simp] theorem nextOrder_shed :
    (nextOrder s).shed = s.shed := rfl
@[simp] theorem nextOrder_shedList :
    (nextOrder s).shedList = s.shedList := rfl
@[simp] theorem nextOrder_relief :
    (nextOrder s).relief = s.relief := rfl
@[simp] theorem nextOrder_channels :
    (nextOrder s).channels = s.channels := rfl
@[simp] theorem nextOrder_clients :
    (nextOrder s).clients = s.clients := rfl
@[simp] theorem nextOrder_mode :
    (nextOrder s).mode = s.mode := rfl
@[simp] theorem nextOrder_settings :
    (nextOrder s).settings = s.settings := rfl
@[simp] theorem nextOrder_flags :
    (nextOrder s).flags = s.flags := rfl
@[simp] theorem nextOrder_safeHeld :
    (nextOrder s).safeHeld = s.safeHeld := rfl
@[simp] theorem nextOrder_resetSafe :
    (nextOrder s).resetSafe = s.resetSafe := rfl
@[simp] theorem nextOrder_clientPort :
    (nextOrder s).clientPort = s.clientPort := rfl
@[simp] theorem nextOrder_managementPort :
    (nextOrder s).managementPort = s.managementPort := rfl
@[simp] theorem nextOrder_address :
    (nextOrder s).address = s.address := rfl
@[simp] theorem nextOrder_tierLines :
    (nextOrder s).tierLines = s.tierLines := rfl
@[simp] theorem nextOrder_safePin :
    (nextOrder s).safePin = s.safePin := rfl
@[simp] theorem nextOrder_addrPin :
    (nextOrder s).addrPin = s.addrPin := rfl
@[simp] theorem nextOrder_attn :
    (nextOrder s).attn = s.attn := rfl
@[simp] theorem nextOrder_alert :
    (nextOrder s).alert = s.alert := rfl
@[simp] theorem nextOrder_response :
    (nextOrder s).response = s.response := rfl
@[simp] theorem nextOrder_pending :
    (nextOrder s).pending = s.pending := rfl

/-! ## State.setPort -/

@[simp] theorem State.setPort_slots (p : PortId) (x : PortUnit) :
    (s.setPort p x).slots = s.slots := by
  cases p <;> rfl
@[simp] theorem State.setPort_admission (p : PortId) (x : PortUnit) :
    (s.setPort p x).admission = s.admission := by
  cases p <;> rfl
@[simp] theorem State.setPort_committed (p : PortId) (x : PortUnit) :
    (s.setPort p x).committed = s.committed := by
  cases p <;> rfl
@[simp] theorem State.setPort_tick (p : PortId) (x : PortUnit) :
    (s.setPort p x).tick = s.tick := by
  cases p <;> rfl
@[simp] theorem State.setPort_settleTimer (p : PortId) (x : PortUnit) :
    (s.setPort p x).settleTimer = s.settleTimer := by
  cases p <;> rfl
@[simp] theorem State.setPort_selected (p : PortId) (x : PortUnit) :
    (s.setPort p x).selected = s.selected := by
  cases p <;> rfl
@[simp] theorem State.setPort_pendingTier (p : PortId) (x : PortUnit) :
    (s.setPort p x).pendingTier = s.pendingTier := by
  cases p <;> rfl
@[simp] theorem State.setPort_budget (p : PortId) (x : PortUnit) :
    (s.setPort p x).budget = s.budget := by
  cases p <;> rfl
@[simp] theorem State.setPort_waitQueue (p : PortId) (x : PortUnit) :
    (s.setPort p x).waitQueue = s.waitQueue := by
  cases p <;> rfl
@[simp] theorem State.setPort_shed (p : PortId) (x : PortUnit) :
    (s.setPort p x).shed = s.shed := by
  cases p <;> rfl
@[simp] theorem State.setPort_shedList (p : PortId) (x : PortUnit) :
    (s.setPort p x).shedList = s.shedList := by
  cases p <;> rfl
@[simp] theorem State.setPort_relief (p : PortId) (x : PortUnit) :
    (s.setPort p x).relief = s.relief := by
  cases p <;> rfl
@[simp] theorem State.setPort_channels (p : PortId) (x : PortUnit) :
    (s.setPort p x).channels = s.channels := by
  cases p <;> rfl
@[simp] theorem State.setPort_clients (p : PortId) (x : PortUnit) :
    (s.setPort p x).clients = s.clients := by
  cases p <;> rfl
@[simp] theorem State.setPort_mode (p : PortId) (x : PortUnit) :
    (s.setPort p x).mode = s.mode := by
  cases p <;> rfl
@[simp] theorem State.setPort_settings (p : PortId) (x : PortUnit) :
    (s.setPort p x).settings = s.settings := by
  cases p <;> rfl
@[simp] theorem State.setPort_flags (p : PortId) (x : PortUnit) :
    (s.setPort p x).flags = s.flags := by
  cases p <;> rfl
@[simp] theorem State.setPort_safeHeld (p : PortId) (x : PortUnit) :
    (s.setPort p x).safeHeld = s.safeHeld := by
  cases p <;> rfl
@[simp] theorem State.setPort_resetSafe (p : PortId) (x : PortUnit) :
    (s.setPort p x).resetSafe = s.resetSafe := by
  cases p <;> rfl
@[simp] theorem State.setPort_address (p : PortId) (x : PortUnit) :
    (s.setPort p x).address = s.address := by
  cases p <;> rfl
@[simp] theorem State.setPort_tierLines (p : PortId) (x : PortUnit) :
    (s.setPort p x).tierLines = s.tierLines := by
  cases p <;> rfl
@[simp] theorem State.setPort_safePin (p : PortId) (x : PortUnit) :
    (s.setPort p x).safePin = s.safePin := by
  cases p <;> rfl
@[simp] theorem State.setPort_addrPin (p : PortId) (x : PortUnit) :
    (s.setPort p x).addrPin = s.addrPin := by
  cases p <;> rfl
@[simp] theorem State.setPort_attn (p : PortId) (x : PortUnit) :
    (s.setPort p x).attn = s.attn := by
  cases p <;> rfl
@[simp] theorem State.setPort_alert (p : PortId) (x : PortUnit) :
    (s.setPort p x).alert = s.alert := by
  cases p <;> rfl
@[simp] theorem State.setPort_response (p : PortId) (x : PortUnit) :
    (s.setPort p x).response = s.response := by
  cases p <;> rfl
@[simp] theorem State.setPort_fresh (p : PortId) (x : PortUnit) :
    (s.setPort p x).fresh = s.fresh := by
  cases p <;> rfl
@[simp] theorem State.setPort_pending (p : PortId) (x : PortUnit) :
    (s.setPort p x).pending = s.pending := by
  cases p <;> rfl

/-! ## The updated fields -/

@[simp] theorem nextOrder_fresh : (nextOrder s).fresh = s.fresh + 1 := rfl
@[simp] theorem raise_flags (f : EventFlag) : (raise f s).flags = s.flags ||| f.mask := rfl
@[simp] theorem driveLines_attn : (driveLines s).attn = attnCondition s := rfl
@[simp] theorem driveLines_alert : (driveLines s).alert = alertCondition s := rfl

end Sys2Proof.Machine
end

