-- ==== Sys2Proof/Laws/Access.lean ====
section
/-! SUPPORT. Reading slots, channels, clients and ports after a write: the written one reads as written, and every
other one as before. -/

namespace Sys2Proof.Machine

variable (s : State)

theorem State.slot_setSlot (i j : SlotId) (x : Slot) :
    (s.setSlot i x).slot j = if j = i then x else s.slot j := by
  simp only [State.slot, State.setSlot, Fin.getElem_fin, Vector.getElem_set]
  by_cases h : j = i
  · simp [h]
  · have : ¬ (i.val = j.val) := fun e => h (Fin.ext e.symm)
    simp [h, this]

@[simp] theorem State.slot_setSlot_same (i : SlotId) (x : Slot) : (s.setSlot i x).slot i = x := by
  simp [State.slot_setSlot]

theorem State.slot_setSlot_other {i j : SlotId} (x : Slot) (h : j ≠ i) : (s.setSlot i x).slot j = s.slot j := by
  simp [State.slot_setSlot, h]

theorem State.slot_setRecord (i j : SlotId) (r : Record) :
    (s.setRecord i r).slot j = if j = i then { gen := (s.slot i).gen, record := some r } else s.slot j := by
  simp [State.setRecord, State.slot_setSlot]

@[simp] theorem State.slot_setRecord_same (i : SlotId) (r : Record) :
    (s.setRecord i r).slot i = { gen := (s.slot i).gen, record := some r } := by
  simp [State.slot_setRecord]

theorem State.slot_setRecord_other {i j : SlotId} (r : Record) (h : j ≠ i) :
    (s.setRecord i r).slot j = s.slot j := by
  simp [State.slot_setRecord, h]

theorem State.channel_setChannel (n m : ChannelId) (x : Channel) :
    (s.setChannel n x).channel m = if m = n then x else s.channel m := by
  simp only [State.channel, State.setChannel, Fin.getElem_fin, Vector.getElem_set]
  by_cases h : m = n
  · simp [h]
  · have : ¬ (n.val = m.val) := fun e => h (Fin.ext e.symm)
    simp [h, this]

@[simp] theorem State.channel_setChannel_same (n : ChannelId) (x : Channel) :
    (s.setChannel n x).channel n = x := by
  simp [State.channel_setChannel]

theorem State.client_setClient (c d : ClientId) (x : Client) :
    (s.setClient c x).client d = if d = c then x else s.client d := by
  simp only [State.client, State.setClient, Fin.getElem_fin, Vector.getElem_set]
  by_cases h : d = c
  · simp [h]
  · have : ¬ (c.val = d.val) := fun e => h (Fin.ext e.symm)
    simp [h, this]

@[simp] theorem State.client_setClient_same (c : ClientId) (x : Client) : (s.setClient c x).client c = x := by
  simp [State.client_setClient]

theorem State.port_setPort (p q : PortId) (x : PortUnit) :
    (s.setPort p x).port q = if q = p then x else s.port q := by
  cases p <;> cases q <;> rfl

@[simp] theorem State.port_setPort_same (p : PortId) (x : PortUnit) : (s.setPort p x).port p = x := by
  cases p <;> rfl

/-! ## An accessor sees only its own update -/

@[simp] theorem State.slot_setChannel (i : SlotId) (n : ChannelId) (x : Channel) :
    (s.setChannel n x).slot i = s.slot i := rfl
@[simp] theorem State.slot_setClient (i : SlotId) (c : ClientId) (x : Client) :
    (s.setClient c x).slot i = s.slot i := rfl
@[simp] theorem State.slot_setPort (i : SlotId) (p : PortId) (x : PortUnit) :
    (s.setPort p x).slot i = s.slot i := by cases p <;> rfl
@[simp] theorem State.slot_raise (i : SlotId) (f : EventFlag) : (raise f s).slot i = s.slot i := rfl
@[simp] theorem State.slot_driveLines (i : SlotId) : (driveLines s).slot i = s.slot i := rfl
@[simp] theorem State.slot_nextOrder (i : SlotId) : (nextOrder s).slot i = s.slot i := rfl

@[simp] theorem State.channel_setSlot (n : ChannelId) (i : SlotId) (x : Slot) :
    (s.setSlot i x).channel n = s.channel n := rfl
@[simp] theorem State.channel_setRecord (n : ChannelId) (i : SlotId) (r : Record) :
    (s.setRecord i r).channel n = s.channel n := rfl
@[simp] theorem State.channel_setClient (n : ChannelId) (c : ClientId) (x : Client) :
    (s.setClient c x).channel n = s.channel n := rfl
@[simp] theorem State.channel_setPort (n : ChannelId) (p : PortId) (x : PortUnit) :
    (s.setPort p x).channel n = s.channel n := by cases p <;> rfl
@[simp] theorem State.channel_raise (n : ChannelId) (f : EventFlag) : (raise f s).channel n = s.channel n := rfl
@[simp] theorem State.channel_driveLines (n : ChannelId) : (driveLines s).channel n = s.channel n := rfl
@[simp] theorem State.channel_nextOrder (n : ChannelId) : (nextOrder s).channel n = s.channel n := rfl

@[simp] theorem State.client_setSlot (c : ClientId) (i : SlotId) (x : Slot) :
    (s.setSlot i x).client c = s.client c := rfl
@[simp] theorem State.client_setRecord (c : ClientId) (i : SlotId) (r : Record) :
    (s.setRecord i r).client c = s.client c := rfl
@[simp] theorem State.client_setChannel (c : ClientId) (n : ChannelId) (x : Channel) :
    (s.setChannel n x).client c = s.client c := rfl
@[simp] theorem State.client_setPort (c : ClientId) (p : PortId) (x : PortUnit) :
    (s.setPort p x).client c = s.client c := by cases p <;> rfl
@[simp] theorem State.client_raise (c : ClientId) (f : EventFlag) : (raise f s).client c = s.client c := rfl
@[simp] theorem State.client_driveLines (c : ClientId) : (driveLines s).client c = s.client c := rfl
@[simp] theorem State.client_nextOrder (c : ClientId) : (nextOrder s).client c = s.client c := rfl

@[simp] theorem State.port_setSlot (p : PortId) (i : SlotId) (x : Slot) : (s.setSlot i x).port p = s.port p := by
  cases p <;> rfl
@[simp] theorem State.port_setRecord (p : PortId) (i : SlotId) (r : Record) :
    (s.setRecord i r).port p = s.port p := by cases p <;> rfl
@[simp] theorem State.port_setChannel (p : PortId) (n : ChannelId) (x : Channel) :
    (s.setChannel n x).port p = s.port p := by cases p <;> rfl
@[simp] theorem State.port_setClient (p : PortId) (c : ClientId) (x : Client) :
    (s.setClient c x).port p = s.port p := by cases p <;> rfl
@[simp] theorem State.port_raise (p : PortId) (f : EventFlag) : (raise f s).port p = s.port p := by
  cases p <;> rfl
@[simp] theorem State.port_driveLines (p : PortId) : (driveLines s).port p = s.port p := by cases p <;> rfl
@[simp] theorem State.port_nextOrder (p : PortId) : (nextOrder s).port p = s.port p := by cases p <;> rfl

/-- The handle of a slot at its present generation names the slot and its record. -/
theorem named_of_handle {i : SlotId} {r : Record} {h : Half} (hh : h.toNat = handleOf i (s.slot i).gen)
    (hr : (s.slot i).record = some r) : named h s = some (i, r) := by
  have hi : handleSlot h = i := by
    apply Fin.ext
    simp only [handleSlot, Fin.val_ofNat, hh, handleOf]
    omega
  have hg : handleGen h = (s.slot i).gen.toNat := by
    simp only [handleGen, hh, handleOf]
    omega
  simp [named, hi, hg, hr]

end Sys2Proof.Machine
end

