-- ==== Sys2Proof/Laws/Bytes.lean ====
section
/-! SUPPORT. Fields of payloads and views: what `byte2`, `byte4` and `tickBytes` write is what `halfAt` and
`quadAt` read, and the bits of a flags byte. -/

namespace Sys2Proof.Machine

/-- The two bytes of a field, read as a half. -/
theorem half_of_bytes (n : Nat) :
    (BitVec.ofNat 8 (n / 256) ++ BitVec.ofNat 8 n : BitVec 16) = BitVec.ofNat 16 n := by
  apply BitVec.eq_of_toNat_eq
  rw [BitVec.toNat_append, ← Nat.shiftLeft_add_eq_or_of_lt (BitVec.isLt _), Nat.shiftLeft_eq]
  simp only [BitVec.toNat_ofNat]
  omega

/-- The two halves of a field, read as a quad. -/
theorem quad_of_halves (n : Nat) :
    (BitVec.ofNat 16 (n / 65536) ++ BitVec.ofNat 16 n : BitVec 32) = BitVec.ofNat 32 n := by
  apply BitVec.eq_of_toNat_eq
  rw [BitVec.toNat_append, ← Nat.shiftLeft_add_eq_or_of_lt (BitVec.isLt _), Nat.shiftLeft_eq]
  simp only [BitVec.toNat_ofNat]
  omega

/-- An optional tick value as a view carries it. -/
theorem tick_of_view (t : Option Tick) : BitVec.ofNat 32 ((t.map BitVec.toNat).getD 0) = t.getD 0 := by
  cases t <;> simp

/-- A field read from its own two bytes. -/
theorem halfAt_halfBytes (h : Half) (rest : List Byte) : halfAt (halfBytes h ++ rest) 0 = h := by
  simp only [halfAt, halfBytes, byteAt, List.cons_append, List.nil_append, List.getD_cons_zero,
    List.getD_cons_succ]
  ext k hk
  simp only [BitVec.getElem_append, BitVec.getElem_extractLsb', Nat.zero_add]
  split
  · simp [BitVec.getLsbD_eq_getElem, hk]
  · rw [show 8 + (k - 8) = k by omega, BitVec.getLsbD_eq_getElem hk]

/-- A field read from its own four bytes. -/
theorem quadAt_quadBytes (q : Quad) (rest : List Byte) : quadAt (quadBytes q ++ rest) 0 = q := by
  have h := halfAt_halfBytes (q.extractLsb' 16 16) (halfBytes (q.extractLsb' 0 16) ++ rest)
  have l : halfAt (quadBytes q ++ rest) 2 = q.extractLsb' 0 16 := halfAt_halfBytes _ rest
  have u : halfAt (quadBytes q ++ rest) 0 = q.extractLsb' 16 16 := by
    rw [quadBytes, List.append_assoc]
    exact h
  rw [quadAt, u, l]
  ext k hk
  simp only [BitVec.getElem_append, BitVec.getElem_extractLsb', Nat.zero_add]
  split
  · simp [BitVec.getLsbD_eq_getElem, hk]
  · rw [show 16 + (k - 16) = k by omega, BitVec.getLsbD_eq_getElem hk]

/-- `byte2` writes the bytes of the half. -/
theorem byte2_eq_halfBytes (n : Nat) : byte2 n = halfBytes (BitVec.ofNat 16 n) := by
  simp only [byte2, halfBytes, List.cons.injEq, and_true]
  constructor <;>
  · apply BitVec.eq_of_toNat_eq
    simp only [BitVec.toNat_ofNat, BitVec.extractLsb'_toNat, Nat.shiftRight_eq_div_pow]
    omega

end Sys2Proof.Machine
end

