-- ==== Sys2Proof/Laws/Frames.lean ====
section
/-! SUPPORT. The frame relations are reflexive and transitive, and the small updates keep them. -/

namespace Sys2Proof.Machine

theorem SamePart.refl (s : State) : SamePart s s := by constructor <;> rfl

theorem SamePart.trans {s t u : State} (a : SamePart s t) (b : SamePart t u) : SamePart s u where
  tick        := b.tick.trans a.tick
  settleTimer := b.settleTimer.trans a.settleTimer
  selected    := b.selected.trans a.selected
  pendingTier := b.pendingTier.trans a.pendingTier
  budget      := b.budget.trans a.budget
  mode        := b.mode.trans a.mode
  settings    := b.settings.trans a.settings
  safeHeld    := b.safeHeld.trans a.safeHeld
  resetSafe   := b.resetSafe.trans a.resetSafe
  address     := b.address.trans a.address
  tierLines   := b.tierLines.trans a.tierLines
  safePin     := b.safePin.trans a.safePin
  addrPin     := b.addrPin.trans a.addrPin
  pending     := b.pending.trans a.pending

theorem SamePorts.refl (s : State) : SamePorts s s := ⟨rfl, rfl, rfl⟩

theorem SamePorts.trans {s t u : State} (a : SamePorts s t) (b : SamePorts t u) : SamePorts s u :=
  ⟨b.1.trans a.1, b.2.trans a.2, b.3.trans a.3⟩

theorem SamePorts.port {s t : State} (a : SamePorts s t) (p : PortId) : t.port p = s.port p := by
  cases p
  · exact a.clientPort
  · exact a.managementPort

theorem SameGrant.refl (r : Record) : SameGrant r r := by constructor <;> rfl

theorem SameGrant.trans {r₁ r₂ r₃ : Record} (a : SameGrant r₁ r₂) (b : SameGrant r₂ r₃) : SameGrant r₁ r₃ where
  owner   := b.owner.trans a.owner
  channel := b.channel.trans a.channel
  amount  := b.amount.trans a.amount
  floor   := b.floor.trans a.floor
  cls     := b.cls.trans a.cls
  kind    := b.kind.trans a.kind
  tag     := b.tag.trans a.tag

theorem Phase.moves_refl (f : Phase) : f.moves f := by cases f <;> simp [Phase.moves]

theorem Phase.moves_trans {f g h : Phase} (a : f.moves g) (b : g.moves h) : f.moves h := by
  cases f <;> cases g <;> cases h <;> simp_all [Phase.moves]

theorem SlotMoves.refl (x : Slot) : SlotMoves x x :=
  ⟨rfl, id, fun r h => ⟨r, h, SameGrant.refl r, Phase.moves_refl _, fun _ => rfl⟩⟩

theorem SlotMoves.trans {x y z : Slot} (a : SlotMoves x y) (b : SlotMoves y z) : SlotMoves x z where
  gen := b.gen.trans a.gen
  free h := b.free (a.free h)
  record r h := by
    obtain ⟨r', h', g, m, k⟩ := a.record r h
    obtain ⟨r'', h'', g', m', k'⟩ := b.record r' h'
    refine ⟨r'', h'', g.trans g', Phase.moves_trans m m', fun hr => ?_⟩
    have e : r' = r := k hr
    subst e
    exact k' hr

theorem ChannelKept.refl (x : Channel) : ChannelKept x x := by constructor <;> rfl

theorem ChannelKept.trans {x y z : Channel} (a : ChannelKept x y) (b : ChannelKept y z) : ChannelKept x z where
  profile    := b.profile.trans a.profile
  faultCount := b.faultCount.trans a.faultCount
  cause      := b.cause.trans a.cause
  pg         := b.pg.trans a.pg
  fltN       := b.fltN.trans a.fltN

theorem RightsKept.refl (o : Client) : RightsKept o o := by constructor <;> rfl

theorem RightsKept.trans {x y z : Client} (a : RightsKept x y) (b : RightsKept y z) : RightsKept x z where
  isOpen    := b.isOpen.trans a.isOpen
  quota     := b.quota.trans a.quota
  limit     := b.limit.trans a.limit
  best      := b.best.trans a.best
  attention := b.attention.trans a.attention

theorem GrantFrame.refl (f : SlotId → Prop) (g : ChannelId → Prop) (s : State) : GrantFrame f g s s :=
  ⟨SamePart.refl s, fun _ _ => SlotMoves.refl _, fun _ _ => ChannelKept.refl _, fun _ => RightsKept.refl _,
    fun _ h => h⟩

theorem GrantFrame.trans {f : SlotId → Prop} {g : ChannelId → Prop} {s t u : State} (a : GrantFrame f g s t)
    (b : GrantFrame f g t u) : GrantFrame f g s u :=
  ⟨a.part.trans b.part, fun j h => (a.slots j h).trans (b.slots j h),
    fun n h => (a.channels n h).trans (b.channels n h), fun c => (a.rights c).trans (b.rights c),
    fun k h => b.flags k (a.flags k h)⟩

theorem GrantFrame.mono {f f' : SlotId → Prop} {g g' : ChannelId → Prop} {s t : State} (a : GrantFrame f g s t)
    (hf : ∀ j, f j → f' j) (hg : ∀ n, g n → g' n) : GrantFrame f' g' s t :=
  ⟨a.part, fun j h => a.slots j (h ∘ hf j), fun n h => a.channels n (h ∘ hg n), a.rights, a.flags⟩

theorem StaysOut.refl (j : SlotId) (s : State) : StaysOut j s s := ⟨id, id, id, fun _ => Iff.rfl⟩

theorem StaysOut.trans {j : SlotId} {s t u : State} (a : StaysOut j s t) (b : StaysOut j t u) : StaysOut j s u :=
  ⟨a.1 ∘ b.1, a.2 ∘ b.2, a.3 ∘ b.3, fun c => (b.4 c).trans (a.4 c)⟩

theorem HandOff.refl (s : State) : HandOff s s :=
  ⟨GrantFrame.refl _ _ s, SamePorts.refl s, fun _ => ⟨rfl, rfl⟩, fun j _ => StaysOut.refl j s⟩

/-- A hand-off leaves a spent slot as it is. -/
theorem HandOff.slot_of_spent {s t : State} (a : HandOff s t) {j : SlotId} (h : Spent j s) :
    t.slot j = s.slot j := by
  have m := a.frame.slots j id
  cases hr : (s.slot j).record with
  | none =>
    have := m.free hr
    cases hx : s.slot j; cases hy : t.slot j
    have := m.gen
    simp_all
  | some r =>
    obtain ⟨r', h', -, -, k⟩ := m.record r hr
    have e := k (h r hr)
    have := m.gen
    cases hx : s.slot j; cases hy : t.slot j
    simp_all

theorem HandOff.trans {s t u : State} (a : HandOff s t) (b : HandOff t u) : HandOff s u :=
  ⟨a.frame.trans b.frame, a.ports.trans b.ports,
    fun c => ⟨(b.holdings c).1.trans (a.holdings c).1, (b.holdings c).2.trans (a.holdings c).2⟩,
    fun j h => (a.spent j h).trans (b.spent j (by
      intro r hr
      rw [a.slot_of_spent h] at hr
      exact h r hr))⟩

/-! ## The updates that a hand-off is made of -/

theorem HandOff.raise (f : EventFlag) (s : State) : HandOff s (raise f s) :=
  ⟨⟨by constructor <;> rfl, fun _ _ => SlotMoves.refl _, fun _ _ => ChannelKept.refl _,
    fun _ => RightsKept.refl _, fun k h => by simp [h]⟩, ⟨rfl, rfl, rfl⟩, fun _ => ⟨rfl, rfl⟩,
    fun _ _ => ⟨id, id, id, fun _ => Iff.rfl⟩⟩

theorem HandOff.setRecord {s : State} {i : SlotId} {r r' : Record} (hr : (s.slot i).record = some r)
    (g : SameGrant r r') (m : r.phase.moves r'.phase) (k : r.isRetired = true → r' = r) :
    HandOff s (s.setRecord i r') := by
  refine ⟨⟨by constructor <;> rfl, fun j _ => ?_, fun _ _ => ChannelKept.refl _, fun _ => RightsKept.refl _,
    fun _ h => h⟩, ⟨rfl, rfl, rfl⟩, fun _ => ⟨rfl, rfl⟩, fun _ _ => ⟨id, id, id, fun _ => Iff.rfl⟩⟩
  by_cases h : j = i
  · subst h
    rw [State.slot_setRecord_same]
    refine ⟨rfl, fun e => by simp [hr] at e, fun r₀ e => ⟨r', rfl, ?_⟩⟩
    rw [hr] at e
    cases e
    exact ⟨g, m, k⟩
  · rw [State.slot_setRecord_other s r' h]
    exact SlotMoves.refl _

theorem HandOff.setClient {s : State} {c : ClientId} {o : Client} (k : RightsKept (s.client c) o)
    (hh : o.held = (s.client c).held) (ho : o.occupied = (s.client c).occupied)
    (hn : ∀ j, Spent j s → (j ∈ o.notices ↔ j ∈ (s.client c).notices)) : HandOff s (s.setClient c o) := by
  refine ⟨⟨by constructor <;> rfl, fun _ _ => SlotMoves.refl _, fun _ _ => ChannelKept.refl _, fun d => ?_,
    fun _ h => h⟩, ⟨rfl, rfl, rfl⟩, fun d => ?_, fun j hj => ⟨id, id, id, fun d => ?_⟩⟩ <;>
    rw [State.client_setClient] <;> split
  · next h => rw [h]; exact k
  · exact RightsKept.refl _
  · next h => rw [h]; exact ⟨hh, ho⟩
  · exact ⟨rfl, rfl⟩
  · next h => rw [h]; exact hn j hj
  · exact Iff.rfl

theorem HandOff.setChannel {s : State} {n : ChannelId} {x : Channel} (k : ChannelKept (s.channel n) x) :
    HandOff s (s.setChannel n x) := by
  refine ⟨⟨by constructor <;> rfl, fun _ _ => SlotMoves.refl _, fun m _ => ?_, fun _ => RightsKept.refl _,
    fun _ h => h⟩, ⟨rfl, rfl, rfl⟩, fun _ => ⟨rfl, rfl⟩, fun _ _ => ⟨id, id, id, fun _ => Iff.rfl⟩⟩
  rw [State.channel_setChannel]
  split
  · next h => rw [h]; exact k
  · exact ChannelKept.refl _

/-- A change of the lists, the sums and the shed state alone, which puts no spent slot in a list. -/
theorem HandOff.lists (s : State) {admission waitQueue shedList : List SlotId} (committed relief : Nat)
    (shed : ShedState) (ha : ∀ j, Spent j s → j ∈ admission → j ∈ s.admission)
    (hw : ∀ j, Spent j s → j ∈ waitQueue → j ∈ s.waitQueue)
    (hl : ∀ j, Spent j s → j ∈ shedList → j ∈ s.shedList) :
    HandOff s { s with admission := admission, waitQueue := waitQueue, shedList := shedList,
                       committed := committed, relief := relief, shed := shed } :=
  ⟨⟨by constructor <;> rfl, fun _ _ => SlotMoves.refl _, fun _ _ => ChannelKept.refl _,
    fun _ => RightsKept.refl _, fun _ h => h⟩, ⟨rfl, rfl, rfl⟩, fun _ => ⟨rfl, rfl⟩,
    fun j h => ⟨ha j h, hw j h, hl j h, fun _ => Iff.rfl⟩⟩

theorem mem_without {i j : SlotId} {l : List SlotId} : j ∈ without i l ↔ j ∈ l ∧ j ≠ i := by
  simp [without]

theorem mem_append_other {i j : SlotId} {l : List SlotId} (h : j ≠ i) (m : j ∈ l ++ [i]) : j ∈ l := by
  simpa [h] using m

/-- A spent slot is not the slot of a record that is no tombstone. -/
theorem Spent.ne {s : State} {i j : SlotId} {r : Record} (h : Spent j s) (hr : (s.slot i).record = some r)
    (live : r.isRetired = false) : j ≠ i := by
  rintro rfl
  simp [h r hr] at live

theorem ChannelKept.enter (st : ChannelState) (timer : Option (ChannelTimer × Tick)) (x : Channel) :
    ChannelKept x (x.enter st timer) := by constructor <;> rfl

theorem ChannelKept.beginStart (now : Tick) (x : Channel) : ChannelKept x (x.beginStart now) := by
  constructor <;> rfl

theorem ChannelKept.stop (now : Tick) (x : Channel) : ChannelKept x (x.stop now) := by
  unfold Channel.stop
  split
  · split <;> exact ChannelKept.enter _ _ _
  · split <;> exact ChannelKept.enter _ _ _
  · exact ChannelKept.refl x

theorem ChannelKept.firstGrant (now : Tick) (x : Channel) : ChannelKept x (x.firstGrant now) := by
  unfold Channel.firstGrant
  split
  · exact ChannelKept.beginStart _ _
  · exact ChannelKept.refl x

theorem ChannelKept.gain (now : Tick) (amount : Nat) (x : Channel) : ChannelKept x (x.gain now amount) := by
  unfold Channel.gain
  have h : ChannelKept x { x with sum := x.sum + amount, live := x.live + 1 } := by constructor <;> rfl
  dsimp only
  split
  · exact h.trans (ChannelKept.firstGrant _ _)
  · exact h

end Sys2Proof.Machine
end

