-- ==== Sys2Proof/Laws/HandOff.lean ====
section
/-! SUPPORT. What the shed evaluation, the queue walk and the hand-offs of a claim can do, said once: each is a
`HandOff`. -/

namespace Sys2Proof.Machine

/-- Giving a record that is no tombstone another pending set is a hand-off. -/
theorem setKinds_handOff {s : State} {i : SlotId} {r : Record} (k : KindSet) (hr : (s.slot i).record = some r)
    (live : r.isRetired = false) : HandOff s (setKinds i r k s) := by
  unfold setKinds
  refine HandOff.trans (HandOff.setRecord (r' := { r with kinds := k }) hr (by constructor <;> rfl)
    (Phase.moves_refl _) (by simp [live])) (HandOff.setClient ?_ rfl rfl fun j hj => ?_)
  · constructor <;> rfl
  · have hne : j ≠ i := hj.ne (r := { r with kinds := k }) (by rw [State.slot_setRecord_same]) live
    dsimp only
    split
    · simp [mem_without, hne]
    · split
      · simp [hne]
      · exact Iff.rfl

/-- A posting to a record that is no tombstone is a hand-off. -/
theorem post_handOff {s : State} {i : SlotId} (kind : NoticeKind)
    (live : ∀ r, (s.slot i).record = some r → r.isRetired = false) : HandOff s (post i kind s) := by
  unfold post
  split
  · next r h => exact setKinds_handOff _ h (live r h)
  · exact HandOff.refl s

theorem Record.not_retired_of_queued {r : Record} (h : r.isQueued = true) : r.isRetired = false := by
  unfold Record.isQueued at h
  unfold Record.isRetired
  split <;> simp_all

/-- Making a QUEUED record live is a hand-off. -/
theorem enterLive_handOff {s : State} {i : SlotId} {r : Record} (hr : (s.slot i).record = some r)
    (hq : r.isQueued = true) : HandOff s (enterLive i r s) := by
  have hp : ∃ w, r.phase = .queued w := by
    unfold Record.isQueued at hq
    split at hq
    · next w h => exact ⟨w, h⟩
    · cases hq
  obtain ⟨w, hw⟩ := hp
  have h₁ : HandOff s (s.setRecord i
      { r with phase := .live (decide ((s.channel r.channel).state = .on)) (leaseFrom r.kind s) none }) :=
    HandOff.setRecord hr (by constructor <;> rfl) (by simp [hw, Phase.moves])
      (by simp [Record.not_retired_of_queued hq])
  unfold enterLive
  refine HandOff.trans ?_ (HandOff.setChannel (ChannelKept.gain _ _ _))
  refine HandOff.trans ?_ (HandOff.setClient (by constructor <;> rfl) rfl rfl fun _ _ => Iff.rfl)
  refine h₁.trans (HandOff.lists _ _ _ _ (fun j hj hm => ?_) (fun _ _ => id) (fun _ _ => id))
  exact mem_append_other (hj.ne (by rw [State.slot_setRecord_same]) rfl) hm

/-- After `enterLive` the slot holds a live record of the same grant. -/
theorem enterLive_slot (s : State) (i : SlotId) (r : Record) :
    ∃ powered lease, ((enterLive i r s).slot i).record =
      some { r with phase := .live powered lease none } := by
  refine ⟨decide ((s.channel r.channel).state = .on), leaseFrom r.kind s, ?_⟩
  unfold enterLive
  simp only [State.slot_setChannel, State.slot_setClient]
  change ((s.setRecord i _).slot i).record = _
  rw [State.slot_setRecord_same]

/-- Admitting a QUEUED record from the wait queue is a hand-off (R61, R62). -/
theorem admitQueued_handOff {s : State} {i : SlotId} {r : Record} (hr : (s.slot i).record = some r)
    (hq : r.isQueued = true) : HandOff s (admitQueued i s) := by
  unfold admitQueued
  rw [hr]
  refine HandOff.trans (HandOff.trans (HandOff.trans (HandOff.lists s _ _ _
    (fun _ _ => id) (fun _ _ hm => (mem_without.1 hm).1) (fun _ _ => id))
    (HandOff.setChannel (n := r.channel) ?_)) (enterLive_handOff (i := i) hr hq)) (post_handOff _ ?_)
  · constructor <;> rfl
  · intro r' h
    obtain ⟨p, l, e⟩ := enterLive_slot (State.setChannel { s with waitQueue := without i s.waitQueue } r.channel
      { s.channel r.channel with queued := (s.channel r.channel).queued - 1 }) i r
    rw [e] at h
    cases h
    rfl

/-- A visit that takes a record found it QUEUED. -/
theorem visit_take {s : State} {i : SlotId} (h : visit i s = .take) :
    ∃ r, (s.slot i).record = some r ∧ r.isQueued = true ∧ (s.channel r.channel).state ≠ .faulted ∧
      (s.channel r.channel).sum + r.amount ≤ (s.channel r.channel).profile.ceiling ∧
      r.amount ≤ headroom r.cls s := by
  unfold visit at h
  cases hr : (s.slot i).record with
  | none => simp [hr] at h
  | some r =>
    simp only [hr] at h
    refine ⟨r, rfl, ?_⟩
    by_cases hq : r.isQueued = true
    · by_cases hf : (s.channel r.channel).state = .faulted
      · simp [hq, hf] at h
      · by_cases hc : (s.channel r.channel).profile.ceiling < (s.channel r.channel).sum + r.amount
        · simp [hq, hf, hc] at h
        · by_cases hh : headroom r.cls s < r.amount
          · simp [hq, hf, hc, hh] at h
          · exact ⟨hq, hf, by omega, by omega⟩
    · simp [hq] at h

/-- A walk is a hand-off (R69). -/
theorem walkOver_handOff (l : List SlotId) (s : State) : HandOff s (walkOver l s) := by
  induction l generalizing s with
  | nil => exact HandOff.refl s
  | cons i rest ih =>
    unfold walkOver
    split
    · exact ih s
    · exact HandOff.refl s
    · next h =>
      obtain ⟨r, hr, hq, -⟩ := visit_take h
      exact (admitQueued_handOff hr hq).trans (ih _)

/-- A triggered walk is a hand-off (R68). -/
theorem walk_handOff (s : State) : HandOff s (walk s) := by
  unfold walk
  split
  · exact walkOver_handOff _ s
  · exact HandOff.refl s

/-- Posting REDUCE is a hand-off (R84). -/
theorem postReduce_handOff (i : SlotId) (required : Nat) (s : State) : HandOff s (postReduce i required s) := by
  unfold postReduce
  split
  · next r hr =>
    split
    · next p l hp =>
      refine HandOff.trans (HandOff.trans (HandOff.setRecord (r' := { r with phase := _ }) hr
        (by constructor <;> rfl) ?_ ?_) (HandOff.lists _ _ _ _ (fun _ _ => id) (fun _ _ => id) ?_))
        (post_handOff _ ?_)
      · simp [hp, Phase.moves]
      · simp [Record.isRetired, hp]
      · intro j hj hm
        exact mem_append_other (hj.ne (by rw [State.slot_setRecord_same]) rfl) hm
      · intro r' h
        change ((s.setRecord i _).slot i).record = _ at h
        rw [State.slot_setRecord_same] at h
        cases h
        rfl
    · exact HandOff.refl s
  · exact HandOff.refl s

/-- The choice of victims is a hand-off (R83). -/
theorem chooseVictims_handOff (l : List SlotId) (s : State) : HandOff s (chooseVictims l s) := by
  induction l generalizing s with
  | nil => exact HandOff.refl s
  | cons i rest ih =>
    unfold chooseVictims
    split
    · exact HandOff.refl s
    · split
      · exact (postReduce_handOff _ _ s).trans (ih _)
      · exact ih s

/-- Taking a notice away is a hand-off, and leaves no tombstone behind. -/
theorem endNotice_handOff (i : SlotId) (s : State) : HandOff s (endNotice i s) := by
  unfold endNotice
  split
  · next r hr =>
    split
    · next p l n hp =>
      refine HandOff.trans (HandOff.setRecord (r' := { r with phase := _ }) hr (by constructor <;> rfl) ?_ ?_)
        (HandOff.lists _ _ _ _ (fun _ _ => id) (fun _ _ => id) (fun _ _ hm => (mem_without.1 hm).1))
      · simp [hp, Phase.moves]
      · simp [Record.isRetired, hp]
    · exact HandOff.refl s
  · exact HandOff.refl s

/-- The slot of a NOTICED record after its notice has been taken away. -/
theorem endNotice_slot {s : State} {i : SlotId} {r : Record} {p : Bool} {l : Option Tick} {n : Notice}
    (hr : (s.slot i).record = some r) (hp : r.phase = .live p l (some n)) :
    ((endNotice i s).slot i).record = some { r with phase := .live p l none } := by
  unfold endNotice
  simp only [hr, hp]
  change ((s.setRecord i _).slot i).record = _
  rw [State.slot_setRecord_same]

theorem Record.phase_of_notice {r : Record} {n : Notice} (h : r.notice? = some n) :
    ∃ p l, r.phase = .live p l (some n) := by
  unfold Record.notice? at h
  split at h
  · next p l x hp => exact ⟨p, l, by rw [hp, h]⟩
  · cases h

/-- Withdrawing the notice of a NOTICED record is a hand-off (R86). -/
theorem withdrawNotice_handOff {s : State} {i : SlotId} {r : Record} {n : Notice}
    (hr : (s.slot i).record = some r) (hn : r.notice? = some n) : HandOff s (withdrawNotice i s) := by
  obtain ⟨p, l, hp⟩ := Record.phase_of_notice hn
  refine (endNotice_handOff i s).trans (post_handOff _ fun r' h => ?_)
  rw [endNotice_slot hr hp] at h
  cases h
  rfl

/-- The withdrawals of an evaluation are a hand-off (R85). -/
theorem withdrawFrom_handOff (l : List SlotId) (s : State) : HandOff s (withdrawFrom l s) := by
  induction l generalizing s with
  | nil => exact HandOff.refl s
  | cons i rest ih =>
    unfold withdrawFrom
    split
    · next r hr =>
      split
      · next n hn =>
        split
        · exact (withdrawNotice_handOff hr hn).trans (ih _)
        · exact ih s
      · exact ih s
    · exact ih s

theorem weigh_handOff (s : State) : HandOff s (weigh s) := by
  unfold weigh
  split
  · exact chooseVictims_handOff _ s
  · exact withdrawFrom_handOff _ s

/-- A change of the shed state alone. -/
theorem HandOff.shed (s : State) (x : ShedState) : HandOff s { s with shed := x } :=
  HandOff.lists s s.committed s.relief x (fun _ _ => id) (fun _ _ => id) (fun _ _ => id)

/-- An evaluation is a hand-off (R82 to R87). -/
theorem evaluate_handOff (s : State) : HandOff s (evaluate s) := by
  unfold evaluate
  refine HandOff.trans ?_ (HandOff.shed _ _)
  have hif : ∀ (c : Prop) [Decidable c] (f : EventFlag) (t : State), HandOff s t →
      HandOff s (if c then Machine.raise f t else t) := by
    intro c _ f t ht
    split
    · exact ht.trans (HandOff.raise f t)
    · exact ht
  exact hif _ _ _ (hif _ _ _ (weigh_handOff s))

theorem handOn_handOff (e w : Bool) (s : State) : HandOff s (handOn e w s) := by
  unfold handOn
  have ht : HandOff s (if e then evaluate s else s) := by
    split
    · exact evaluate_handOff s
    · exact HandOff.refl s
  generalize (if e then evaluate s else s) = t at ht
  dsimp only
  split
  · exact ht.trans (walk_handOff t)
  · exact ht

/-- The hand-offs of a change of records are a hand-off (R20). -/
theorem handOnChange_handOff (k : Change) (s : State) : HandOff s (handOnChange k s) := handOn_handOff _ _ s

/-! ## What an evaluation keeps beside that -/

/-- What a shed evaluation leaves as it was beside what every hand-off does: the committed total, the admission list,
the wait queue, every channel, and every client's committed power (R82 to R87). -/
structure EvaluationKeeps (s t : State) : Prop where
  committed : t.committed = s.committed
  admission : t.admission = s.admission
  waitQueue : t.waitQueue = s.waitQueue
  channels  : t.channels = s.channels
  client    : ∀ c, (t.client c).committed = (s.client c).committed

theorem EvaluationKeeps.refl (s : State) : EvaluationKeeps s s := ⟨rfl, rfl, rfl, rfl, fun _ => rfl⟩

theorem EvaluationKeeps.trans {s t u : State} (a : EvaluationKeeps s t) (b : EvaluationKeeps t u) :
    EvaluationKeeps s u :=
  ⟨b.committed.trans a.committed, b.admission.trans a.admission, b.waitQueue.trans a.waitQueue,
    b.channels.trans a.channels, fun c => (b.client c).trans (a.client c)⟩

theorem EvaluationKeeps.setKinds (i : SlotId) (r : Record) (k : KindSet) (s : State) :
    EvaluationKeeps s (Machine.setKinds i r k s) := by
  unfold Machine.setKinds
  refine ⟨rfl, rfl, rfl, rfl, fun c => ?_⟩
  dsimp only
  rw [State.client_setClient]
  split
  · next e => subst e; rfl
  · rfl

theorem EvaluationKeeps.post (i : SlotId) (kind : NoticeKind) (s : State) :
    EvaluationKeeps s (Machine.post i kind s) := by
  unfold Machine.post
  split
  · exact .setKinds _ _ _ s
  · exact .refl s

theorem EvaluationKeeps.postReduce (i : SlotId) (required : Nat) (s : State) :
    EvaluationKeeps s (Machine.postReduce i required s) := by
  unfold Machine.postReduce
  split
  · split
    · dsimp only
      refine EvaluationKeeps.trans ?_ (.post _ _ _)
      exact ⟨rfl, rfl, rfl, rfl, fun _ => rfl⟩
    · exact .refl s
  · exact .refl s

theorem EvaluationKeeps.withdrawNotice (i : SlotId) (s : State) :
    EvaluationKeeps s (Machine.withdrawNotice i s) := by
  refine EvaluationKeeps.trans (t := endNotice i s) ?_ (.post _ _ _)
  unfold endNotice
  split
  · split
    · exact ⟨rfl, rfl, rfl, rfl, fun _ => rfl⟩
    · exact .refl s
  · exact .refl s

theorem EvaluationKeeps.chooseVictims (l : List SlotId) (s : State) :
    EvaluationKeeps s (Machine.chooseVictims l s) := by
  induction l generalizing s with
  | nil => exact .refl s
  | cons i rest ih =>
    unfold Machine.chooseVictims
    split
    · exact .refl s
    · split
      · exact .trans (.postReduce _ _ s) (ih _)
      · exact ih s

theorem EvaluationKeeps.withdrawFrom (l : List SlotId) (s : State) :
    EvaluationKeeps s (Machine.withdrawFrom l s) := by
  induction l generalizing s with
  | nil => exact .refl s
  | cons i rest ih =>
    unfold Machine.withdrawFrom
    split
    · split
      · split
        · exact .trans (.withdrawNotice i s) (ih _)
        · exact ih s
      · exact ih s
    · exact ih s

theorem EvaluationKeeps.weigh (s : State) : EvaluationKeeps s (Machine.weigh s) := by
  unfold Machine.weigh
  split
  · exact .chooseVictims _ s
  · exact .withdrawFrom _ s

/-- An evaluation is its postings or its withdrawals, and beside them the shed state and the event flags (R87). -/
theorem evaluate_eq_weigh (s : State) :
    evaluate s = { weigh s with shed := shedFound (weigh s), flags := (evaluate s).flags } := by
  unfold evaluate
  dsimp only
  split <;> split <;> rfl

theorem evaluate_keeps (s : State) : EvaluationKeeps s (evaluate s) := by
  rw [evaluate_eq_weigh]
  exact .trans (.weigh s) ⟨rfl, rfl, rfl, rfl, fun _ => rfl⟩

/-! ## When no walk follows -/

/-- A walk over slots none of which holds a QUEUED record admits nothing (R69). -/
theorem walkOver_of_none_queued {l : List SlotId} {s : State}
    (h : ∀ j ∈ l, ∀ r, (s.slot j).record = some r → r.isQueued = false) : walkOver l s = s := by
  induction l with
  | nil => rfl
  | cons i rest ih =>
    have hv : visit i s = .passOver := by
      unfold visit
      split
      · next r hr => simp [h i List.mem_cons_self r hr]
      · rfl
    unfold walkOver
    rw [hv]
    exact ih fun j hj => h j (List.mem_cons_of_mem _ hj)

/-- A triggered walk changes nothing outside RUN, with a shed state other than IDLE, or with nothing QUEUED in the
wait queue (R68). -/
theorem walk_idle {s : State} (h : s.mode ≠ .run ∨ s.shed ≠ .idle ∨
    ∀ j ∈ s.waitQueue, ∀ r, (s.slot j).record = some r → r.isQueued = false) : walk s = s := by
  unfold walk
  split
  · next k =>
    obtain h | h | h := h
    · exact absurd k.1 h
    · exact absurd k.2 h
    · exact walkOver_of_none_queued h
  · rfl

/-- A walk sets neither the controller state nor anything of the shed engine, nor a flag (R68, R69). -/
structure WalkKeeps (s t : State) : Prop where
  shed     : t.shed = s.shed
  shedList : t.shedList = s.shedList
  relief   : t.relief = s.relief
  flags    : t.flags = s.flags
  mode     : t.mode = s.mode

theorem WalkKeeps.admitQueued (i : SlotId) (s : State) : WalkKeeps s (Machine.admitQueued i s) := by
  unfold Machine.admitQueued
  split
  · unfold Machine.post
    dsimp only
    split <;> exact ⟨rfl, rfl, rfl, rfl, rfl⟩
  · exact ⟨rfl, rfl, rfl, rfl, rfl⟩

theorem WalkKeeps.walkOver (l : List SlotId) (s : State) : WalkKeeps s (Machine.walkOver l s) := by
  induction l generalizing s with
  | nil => exact ⟨rfl, rfl, rfl, rfl, rfl⟩
  | cons i rest ih =>
    unfold Machine.walkOver
    split
    · exact ih s
    · exact ⟨rfl, rfl, rfl, rfl, rfl⟩
    · have a := WalkKeeps.admitQueued i s
      have b := ih (Machine.admitQueued i s)
      exact ⟨b.shed.trans a.shed, b.shedList.trans a.shedList, b.relief.trans a.relief, b.flags.trans a.flags,
        b.mode.trans a.mode⟩

theorem WalkKeeps.walk (s : State) : WalkKeeps s (Machine.walk s) := by
  unfold Machine.walk
  split
  · exact .walkOver _ s
  · exact ⟨rfl, rfl, rfl, rfl, rfl⟩

/-- The hand-offs of a claim are the evaluation, where one is requested, and then at most one walk (R20). -/
theorem handOn_cases (e w : Bool) (s : State) :
    handOn e w s = (if e then evaluate s else s) ∨ handOn e w s = walk (if e then evaluate s else s) := by
  unfold handOn
  dsimp only
  generalize (if e then evaluate s else s) = t
  split
  · exact .inr rfl
  · exact .inl rfl

end Sys2Proof.Machine
end

