-- ==== Sys2Proof/Laws/Endings.lean ====
section
/-! SUPPORT. What freeing and retiring a record can do, said once: `Frees` and `Retires`, before the hand-offs of
the claim and after them. -/

namespace Sys2Proof.Machine

/-! ## The updates that a change of records is made of -/

variable {f : SlotId → Prop} {g : ChannelId → Prop} {s t : State}

theorem GrantFrame.setSlot (h : GrantFrame f g s t) {i : SlotId} (x : Slot) (hi : f i) :
    GrantFrame f g s (t.setSlot i x) :=
  ⟨by cases h.part; constructor <;> assumption,
    fun j hj => by
      rw [State.slot_setSlot_other t x (by rintro rfl; exact hj hi)]
      exact h.slots j hj,
    h.channels, h.rights, h.flags⟩

theorem GrantFrame.setRecord (h : GrantFrame f g s t) {i : SlotId} (r : Record) (hi : f i) :
    GrantFrame f g s (t.setRecord i r) :=
  h.setSlot _ hi

theorem GrantFrame.setChannel (h : GrantFrame f g s t) {n : ChannelId} {x : Channel}
    (k : ¬ g n → ChannelKept (t.channel n) x) : GrantFrame f g s (t.setChannel n x) := by
  refine ⟨by cases h.part; constructor <;> assumption, h.slots, fun m hm => ?_, h.rights, h.flags⟩
  rw [State.channel_setChannel]
  split
  · next e => subst e; exact (h.channels m hm).trans (k hm)
  · exact h.channels m hm

theorem GrantFrame.setClient (h : GrantFrame f g s t) {c : ClientId} {o : Client}
    (k : RightsKept (t.client c) o) : GrantFrame f g s (t.setClient c o) := by
  refine ⟨by cases h.part; constructor <;> assumption, h.slots, h.channels, fun d => ?_, h.flags⟩
  rw [State.client_setClient]
  split
  · next e => subst e; exact (h.rights d).trans k
  · exact h.rights d

theorem GrantFrame.lists (h : GrantFrame f g s t) (admission waitQueue shedList : List SlotId)
    (committed relief : Nat) :
    GrantFrame f g s { t with admission := admission, waitQueue := waitQueue, shedList := shedList,
                              committed := committed, relief := relief } :=
  ⟨by cases h.part; constructor <;> assumption, h.slots, h.channels, h.rights, h.flags⟩

theorem GrantFrame.raise (h : GrantFrame f g s t) (e : EventFlag) : GrantFrame f g s (raise e t) :=
  ⟨by cases h.part; constructor <;> assumption, h.slots, h.channels, h.rights,
    fun k hk => by simp [h.flags k hk]⟩

theorem GrantFrame.handOff {u : State} (h : GrantFrame f g s t) (k : HandOff t u) : GrantFrame f g s u :=
  h.trans (k.frame.mono (fun _ => False.elim) (fun _ => False.elim))

/-! ## Leaving the collections -/

theorem leaveLive_frame (i : SlotId) (r : Record) (h : GrantFrame f g s t) :
    GrantFrame f g s (leaveLive i r t) := by
  unfold leaveLive
  refine GrantFrame.setClient (GrantFrame.setChannel (h.lists _ _ _ _ _) fun _ => ?_) ?_ <;>
    (constructor <;> rfl)

theorem leaveQueued_frame (i : SlotId) (r : Record) (h : GrantFrame f g s t) :
    GrantFrame f g s (leaveQueued i r t) := by
  unfold leaveQueued
  refine GrantFrame.setClient (GrantFrame.setChannel (h.lists _ _ _ _ _) fun _ => ?_) ?_ <;>
    (constructor <;> rfl)

theorem detach_frame (i : SlotId) (r : Record) (h : GrantFrame f g s t) : GrantFrame f g s (detach i r t) := by
  unfold detach
  split
  · exact leaveQueued_frame i r h
  · exact leaveLive_frame i r h
  · exact h

/-- The slots and the flags are no part of what `detach` writes. -/
@[simp] theorem detach_slots (i : SlotId) (r : Record) : (detach i r s).slots = s.slots := by
  unfold detach
  split <;> rfl

@[simp] theorem detach_slot (i j : SlotId) (r : Record) : (detach i r s).slot j = s.slot j := by
  simp [State.slot]

/-- A record that is no tombstone gives its amount back to its owner's held power when it is detached; no slot
count and no notice queue changes. -/
theorem detach_client {i : SlotId} {r : Record} (live : r.isRetired = false) (c : ClientId) :
    ((detach i r s).client c).held = (s.client c).held - (if c = r.owner then r.amount else 0) ∧
      ((detach i r s).client c).occupied = (s.client c).occupied ∧
      ((detach i r s).client c).notices = (s.client c).notices := by
  unfold detach
  split
  · unfold leaveQueued
    dsimp only
    rw [State.client_setClient]
    split
    · next e => subst e; exact ⟨rfl, rfl, rfl⟩
    · exact ⟨rfl, rfl, rfl⟩
  · unfold leaveLive
    dsimp only
    rw [State.client_setClient]
    split
    · next e => subst e; exact ⟨rfl, rfl, rfl⟩
    · exact ⟨rfl, rfl, rfl⟩
  · next h => simp [Record.isRetired, h] at live

/-- A record that stands in no list but those of its phase. -/
structure Listed (i : SlotId) (r : Record) (s : State) : Prop where
  live   : r.isLive = false → i ∉ s.admission ∧ i ∉ s.shedList
  queued : r.isQueued = false → i ∉ s.waitQueue

theorem CollectionsExact.listed (h : CollectionsExact s) {i : SlotId} {r : Record}
    (hr : (s.slot i).record = some r) : Listed i r s where
  live hl := by
    rw [h.admission.exactly, h.shedList.exactly, hr]
    refine ⟨by simp [hl], ?_⟩
    simp only [Option.any_some, Bool.not_eq_true]
    unfold Record.isLive at hl
    unfold Record.notice?
    split <;> simp_all
  queued hq := by
    rw [h.waitQueue.exactly, hr]
    simp [hq]

/-- A detached record is in no list. -/
theorem detach_inNoList {i : SlotId} {r : Record} (h : Listed i r s) : InNoList i (detach i r s) := by
  unfold detach InNoList
  split
  · next w e =>
    have := h.live (by simp [Record.isLive, e])
    exact ⟨this.1, by simp [leaveQueued, mem_without], this.2⟩
  · next p l n e =>
    have := h.queued (by simp [Record.isQueued, e])
    exact ⟨by simp [leaveLive, mem_without], this, by simp [leaveLive, mem_without]⟩
  · next e =>
    have a := h.live (by simp [Record.isLive, e])
    have b := h.queued (by simp [Record.isQueued, e])
    exact ⟨a.1, b, a.2⟩

/-- The last-grant report stops a channel and does nothing more. -/
theorem lastGrant_handOff (r : Record) (s : State) : HandOff s (lastGrant r s) := by
  unfold lastGrant
  dsimp only
  split
  · exact HandOff.setChannel (ChannelKept.stop _ _)
  · exact HandOff.refl s

/-! ## Freeing -/

/-- A hand-off leaves a freed slot FREE. -/
theorem Frees.handOff {i : SlotId} {r : Record} {u : State} (h : Frees i r s t) (k : HandOff t u) :
    Frees i r s u := by
  have hs : Spent i t := by intro r' e; rw [h.slot] at e; cases e
  have out := k.spent i hs
  refine ⟨(k.slot_of_spent hs).trans h.slot, ⟨h.lists.1 ∘ out.admission, h.lists.2.1 ∘ out.waitQueue,
    h.lists.2.2 ∘ out.shedList⟩, fun m => h.queue ((out.notices _).1 m), fun c => ?_, h.frame.handOff k⟩
  rw [(k.holdings c).1, (k.holdings c).2]
  exact h.holdings c

/-- Freeing a record that is no tombstone (R11, R12). -/
theorem freeRecord_frees {i : SlotId} {r : Record} (live : r.isRetired = false) (h : Listed i r s) :
    Frees i r s (freeRecord i r s) := by
  have hd := detach_inNoList h
  have hc := fun c => detach_client (s := s) (i := i) live c
  have hf := detach_frame (f := fun j => j = i) (g := fun _ => False) i r (GrantFrame.refl _ _ s)
  have hg : (detach i r s).slot i = s.slot i := by simp
  unfold freeRecord
  dsimp only
  refine ⟨?_, hd, ?_, fun c => ?_, GrantFrame.setSlot (GrantFrame.setClient hf ?_) _ rfl⟩
  · rw [State.slot_setSlot_same]
    simp [hg]
  · simp [mem_without]
  · simp only [State.client_setSlot]
    rw [State.client_setClient]
    split
    · next e => subst e; exact ⟨by simpa using (hc r.owner).1, by simp [(hc r.owner).2.1]⟩
    · next e => exact ⟨(hc c).1.trans (by simp [e]), by simp [(hc c).2.1]⟩
  · constructor <;> rfl

/-- Freeing a record, with the last-grant report. -/
theorem freeReporting_frees {i : SlotId} {r : Record} (live : r.isRetired = false) (h : Listed i r s) :
    Frees i r s (freeReporting i r s) :=
  (freeRecord_frees live h).handOff (lastGrant_handOff _ _)

/-! ## Retirement -/

/-- A hand-off leaves a tombstone as it is. -/
theorem Retires.handOff {i : SlotId} {r : Record} {reason : Reason} {u : State} (h : Retires i r reason s t)
    (k : HandOff t u) : Retires i r reason s u := by
  have hs : Spent i t := by intro r' e; rw [h.slot] at e; cases e; rfl
  have out := k.spent i hs
  refine ⟨(k.slot_of_spent hs).trans h.slot, ⟨h.lists.1 ∘ out.admission, h.lists.2.1 ∘ out.waitQueue,
    h.lists.2.2 ∘ out.shedList⟩, fun m => (out.notices _).2 (h.queue m), fun c => ?_, h.frame.handOff k⟩
  rw [(k.holdings c).1, (k.holdings c).2]
  exact h.holdings c

/-- Retiring a record that is no tombstone (R13). -/
theorem retireRecord_retires {i : SlotId} {r : Record} (reason : Reason) (live : r.isRetired = false)
    (h : Listed i r s) : Retires i r reason s (retireRecord i r reason s) := by
  have hd := detach_inNoList h
  have hc := fun c => detach_client (s := s) (i := i) live c
  have hf := detach_frame (f := fun j => j = i) (g := fun _ => False) i r (GrantFrame.refl _ _ s)
  have hg : (detach i r s).slot i = s.slot i := by simp
  have hm : r.kinds.merge .retired = { retired := true } := rfl
  unfold retireRecord post
  simp only [State.slot_setRecord_same, hm]
  unfold setKinds
  dsimp only
  refine ⟨?_, hd, ?_, fun c => ?_, GrantFrame.setClient (GrantFrame.setRecord (hf.setRecord _ rfl) _ rfl) ?_⟩
  · simp [hg]
  · intro m
    simp only [State.client_setClient_same, State.client_setRecord]
    rw [(hc _).2.2]
    have hk : KindSet.isEmpty { retired := true } = false := rfl
    rw [hk, if_neg Bool.false_ne_true]
    by_cases e : r.kinds.isEmpty = true
    · simp [e]
    · simpa [e] using m
  · rw [State.client_setClient]
    split
    · next e => subst e; exact ⟨by simpa using (hc r.owner).1, by simp [(hc r.owner).2.1]⟩
    · next e => exact ⟨(hc c).1.trans (by simp [e]), by simp [(hc c).2.1]⟩
  · constructor <;> rfl

/-- Retiring a record, with the last-grant report. -/
theorem retireReporting_retires {i : SlotId} {r : Record} (reason : Reason) (live : r.isRetired = false)
    (h : Listed i r s) : Retires i r reason s (retireReporting reason i r s) :=
  (retireRecord_retires reason live h).handOff (lastGrant_handOff _ _)

/-! ## The ports -/

theorem detach_ports (i : SlotId) (r : Record) (s : State) : SamePorts s (detach i r s) := by
  unfold detach
  split <;> exact ⟨rfl, rfl, rfl⟩

theorem freeReporting_ports (i : SlotId) (r : Record) (s : State) : SamePorts s (freeReporting i r s) :=
  SamePorts.trans (t := freeRecord i r s) ((detach_ports i r s).trans ⟨rfl, rfl, rfl⟩) (lastGrant_handOff _ _).ports

theorem retireRecord_ports (i : SlotId) (r : Record) (reason : Reason) (s : State) :
    SamePorts s (retireRecord i r reason s) := by
  unfold retireRecord post
  refine (detach_ports i r s).trans ?_
  split <;> exact ⟨rfl, rfl, rfl⟩

theorem retireReporting_ports (reason : Reason) (i : SlotId) (r : Record) (s : State) :
    SamePorts s (retireReporting reason i r s) :=
  (retireRecord_ports i r reason s).trans (lastGrant_handOff _ _).ports

/-! ## Changes of amount -/

/-- A change of amount (R18), with the floor as R7 leaves it. -/
theorem changeAmount_reamounts (i : SlotId) (r : Record) (a : Nat) (s : State) :
    Reamounts i r { r with amount := a, floor := r.floor.filter (fun f => decide (f < a)) } s
      (changeAmount i r a s) := by
  have h : GrantFrame (fun j => j = i) (fun _ => False) s
      (s.setRecord i { r with amount := a, floor := r.floor.filter (fun f => decide (f < a)) }) :=
    (GrantFrame.refl _ _ s).setRecord _ rfl
  unfold changeAmount
  dsimp only
  refine ⟨?_, fun d => ?_, fun d => ?_, GrantFrame.setClient (GrantFrame.setChannel (h.lists _ _ _ _ _) fun _ => ?_) ?_⟩
  · simp only [State.slot_setClient, State.slot_setChannel]
    change SlotMoves _ ((s.setRecord i _).slot i)
    rw [State.slot_setRecord_same]
    exact SlotMoves.refl _
  · rw [State.client_setClient]
    split
    · next e => subst e; rfl
    · rfl
  · rw [State.client_setClient]
    split
    · next e => subst e; rfl
    · rfl
  · constructor <;> rfl
  · constructor <;> rfl

/-- A hand-off keeps a change of amount. -/
theorem Reamounts.handOff {i : SlotId} {r r' : Record} {u : State} (h : Reamounts i r r' s t) (k : HandOff t u) :
    Reamounts i r r' s u where
  slot := h.slot.trans (k.frame.slots i id)
  held c := (k.holdings c).1.trans (h.held c)
  occupied c := (k.holdings c).2.trans (h.occupied c)
  frame := h.frame.handOff k

end Sys2Proof.Machine
end

