-- ==== Sys2Proof/Laws/Claims.lean ====
section
/-! SUPPORT. The shape of a claim: what the response of a command and the driving of the lines add to the state
that the command's action leaves. -/

namespace Sys2Proof.Machine

variable {s t : State} {p : PortId} {i : Instr} {a : Reply}

theorem resetEntry_settled (h : s.resetSafe = false) : resetEntry s = s := by simp [resetEntry, h]

/-- An event, when no safe entry of a reset is due. -/
theorem claim_settled (f : State → State) (h : s.resetSafe = false) : claim f s = .next (driveLines (f s)) := by
  simp [claim, resetEntry_settled h]

/-- An event that arises is a claim (R29, R107). -/
theorem claimWhen_arises {b : Bool} (f : State → State) (s : State) (h : b = true) : claimWhen b f s = claim f s := by
  simp [claimWhen, h]

/-- Where no event arises nothing changes. -/
theorem claimWhen_not {b : Bool} (f : State → State) (s : State) (h : b = false) : claimWhen b f s = .next s := by
  simp [claimWhen, h]

/-- A line change in a state that takes it is a claim; in any other it changes the level alone (R107, R110). -/
theorem lineEvent_cases (takes : ChannelState → Bool) (level f : State → State) (n : ChannelId) (s : State) :
    (takes (s.channel n).state = true ∧ lineEvent takes level f n s = claim (fun s => f (level s)) s) ∨
    (takes (s.channel n).state = false ∧ lineEvent takes level f n s = .next (level s)) := by
  unfold lineEvent
  cases takes (s.channel n).state
  · exact .inr ⟨rfl, rfl⟩
  · exact .inl ⟨rfl, rfl⟩

/-- The safe entry that a reset left due is made once, and what the first claim finds is the state after it (R152). -/
theorem resetEntry_idem (s : State) : resetEntry (resetEntry s) = resetEntry s := by
  unfold resetEntry
  by_cases h : s.resetSafe = true
  · simp [h, safeEntry, bulkClear, raise]
  · simp [h]

/-- A command whose safe entry is due is the command on the state after the entry (R152). -/
theorem command_resetEntry (p : PortId) (i : Instr) (f : State → State × Reply) (s : State) :
    command p i f s = command p i f (resetEntry s) := by
  simp [command, resetEntry_idem]

/-- Showing what a port sent writes that port's windows and nothing else (log entry 27). -/
theorem signal_same (p : PortId) (bus : Bus) (written : Nat) (out : List Byte) (s : State) :
    SamePart s (signal p bus written out s) ∧ SameBody s (signal p bus written out s) ∧
      (∀ q, q ≠ p → (signal p bus written out s).port q = s.port q) ∧
      (signal p bus written out s).port p =
        { s.port p with shifted := leadIn bus ++ out, acked := acksOf written bus } := by
  refine ⟨by cases p <;> (constructor <;> rfl), by cases p <;> (constructor <;> rfl), fun q hq => ?_, ?_⟩
  · cases p <;> cases q <;> first | rfl | exact absurd rfl hq
  · cases p <;> rfl

/-- A command, when no safe entry of a reset is due. -/
theorem command_settled {f : State → State × Reply} (h : s.resetSafe = false) (hf : f s = (t, a)) :
    command p i f s = .next (driveLines (respond p i a t)) := by
  simp [command, resetEntry_settled h, hf]

theorem driveLines_driven (s : State) : LinesDriven (driveLines s) := ⟨rfl, rfl⟩

/-- The response of a command writes nothing but the last response and its port. -/
theorem respond_cases (p : PortId) (i : Instr) (a : Reply) (s : State) :
    (respond p i a s = { s with response := some (p, a) } ∧ (s.port p).handed ≠ some i) ∨
    (respond p i a s =
        { s with response := some (p, a) }.setPort p
          { s.port p with handed := none, overtaken := false, reply := some a } ∧
      (s.port p).handed = some i) := by
  unfold respond
  by_cases h : (s.port p).handed = some i
  · exact .inr ⟨by simp [h], h⟩
  · exact .inl ⟨by simp [h], h⟩

theorem respond_part (p : PortId) (i : Instr) (a : Reply) (s : State) :
    SamePart s (driveLines (respond p i a s)) := by
  obtain ⟨e, -⟩ | ⟨e, -⟩ := respond_cases p i a s <;> rw [e] <;> cases p <;> constructor <;> rfl

theorem respond_body (p : PortId) (i : Instr) (a : Reply) (s : State) :
    SameBody s (driveLines (respond p i a s)) := by
  obtain ⟨e, -⟩ | ⟨e, -⟩ := respond_cases p i a s <;> rw [e] <;> cases p <;> constructor <;> rfl

theorem respond_answered (p : PortId) (i : Instr) (a : Reply) (h : SamePorts s t) :
    Answered p i a s (driveLines (respond p i a t)) := by
  have hp := h.port
  obtain ⟨e, n⟩ | ⟨e, n⟩ := respond_cases p i a t <;> rw [e] <;> rw [hp] at n
  · refine ⟨by cases p <;> rfl, ?_, fun q _ => ?_⟩
    · rw [if_neg n]
      exact Eq.trans (by cases p <;> rfl) (hp p)
    · exact Eq.trans (by cases q <;> rfl) (hp q)
  · refine ⟨by cases p <;> rfl, ?_, fun q hq => ?_⟩
    · rw [if_pos n]
      simp [hp]
    · simp only [State.port_driveLines, State.port_setPort, hq, if_false]
      exact Eq.trans (by cases q <;> rfl) (hp q)

/-! ## From the state that the action leaves to the state after the claim -/

variable {u : State}

theorem SameBody.slot (h : SameBody t u) (j : SlotId) : u.slot j = t.slot j := by simp [State.slot, h.slots]

theorem SameBody.channel (h : SameBody t u) (n : ChannelId) : u.channel n = t.channel n := by
  simp [State.channel, h.channels]

theorem SameBody.client (h : SameBody t u) (c : ClientId) : u.client c = t.client c := by
  simp [State.client, h.clients]

theorem SameBody.trans (a : SameBody s t) (b : SameBody t u) : SameBody s u where
  slots     := b.slots.trans a.slots
  admission := b.admission.trans a.admission
  committed := b.committed.trans a.committed
  waitQueue := b.waitQueue.trans a.waitQueue
  shed      := b.shed.trans a.shed
  shedList  := b.shedList.trans a.shedList
  relief    := b.relief.trans a.relief
  channels  := b.channels.trans a.channels
  clients   := b.clients.trans a.clients
  flags     := b.flags.trans a.flags

theorem ListsKept.same (h : ListsKept s t) (body : SameBody t u) : ListsKept s u :=
  ⟨body.admission.trans h.admission, body.committed.trans h.committed, body.waitQueue.trans h.waitQueue,
    ⟨body.shed.trans h.others.shed, body.shedList.trans h.others.shedList,
      body.relief.trans h.others.relief, body.flags.trans h.others.flags⟩⟩

theorem Untouched.same {f : SlotId → Prop} {g : ChannelId → Prop} {k : ClientId → Prop}
    (h : Untouched f g k s t) (part : SamePart t u) (body : SameBody t u) : Untouched f g k s u :=
  ⟨h.part.trans part, fun j hj => (body.slot j).trans (h.slots j hj),
    fun n hn => (body.channel n).trans (h.channels n hn), fun c hc => (body.client c).trans (h.clients c hc)⟩

/-- A command whose action `f` leaves `t` and answers `a`: what holds of every state that shares the grant body
and the rest of the part with `t` holds after the command. -/
theorem takes_of {f : State → State × Reply} {P : State → Prop} (hx : exec i s = command p i f s)
    (settled : s.resetSafe = false) (hf : f s = (t, a)) (ports : SamePorts s t)
    (hP : ∀ u, SamePart t u → SameBody t u → P u) : Takes p i a s P :=
  ⟨_, hx.trans (command_settled settled hf), respond_answered p i a ports, driveLines_driven _,
    hP _ (respond_part _ _ _ _) (respond_body _ _ _ _)⟩

/-- An event whose change `f` leaves `t`. -/
theorem happens_of {f : State → State} {P : State → Prop} (hx : exec i s = claim f s)
    (settled : s.resetSafe = false) (hf : f s = t) (ports : SamePorts s t)
    (hP : ∀ u, SamePart t u → SameBody t u → P u) : Happens i s P :=
  ⟨_, hx.trans (claim_settled f settled), by rw [hf]; exact ports.trans ⟨rfl, rfl, rfl⟩, driveLines_driven _,
    hP _ (by rw [hf]; constructor <;> rfl) (by rw [hf]; constructor <;> rfl)⟩

/-- A state whose grant body and rest of the part are another's stands in the same frame. -/
theorem GrantFrame.same {f : SlotId → Prop} {g : ChannelId → Prop} {u : State} (h : GrantFrame f g s t)
    (part : SamePart t u) (body : SameBody t u) : GrantFrame f g s u := by
  refine h.trans ⟨part, fun j _ => ?_, fun n _ => ?_, fun c => ?_, fun k hk => ?_⟩
  · simpa [State.slot, body.slots] using SlotMoves.refl _
  · simpa [State.channel, body.channels] using ChannelKept.refl _
  · simpa [State.client, body.clients] using RightsKept.refl _
  · simpa [body.flags] using hk

theorem Frees.same {j : SlotId} {r : Record} {u : State} (h : Frees j r s t) (part : SamePart t u)
    (body : SameBody t u) : Frees j r s u := by
  have hc : ∀ c, u.client c = t.client c := fun c => by simp [State.client, body.clients]
  refine ⟨?_, ?_, ?_, fun c => ?_, h.frame.same part body⟩
  · simpa [State.slot, body.slots] using h.slot
  · simpa [InNoList, body.admission, body.waitQueue, body.shedList] using h.lists
  · simpa [hc] using h.queue
  · simpa [hc] using h.holdings c

theorem Retires.same {j : SlotId} {r : Record} {x : Reason} {u : State} (h : Retires j r x s t)
    (part : SamePart t u) (body : SameBody t u) : Retires j r x s u := by
  have hc : ∀ c, u.client c = t.client c := fun c => by simp [State.client, body.clients]
  refine ⟨?_, ?_, ?_, fun c => ?_, h.frame.same part body⟩
  · simpa [State.slot, body.slots] using h.slot
  · simpa [InNoList, body.admission, body.waitQueue, body.shedList] using h.lists
  · simpa [hc] using h.queue
  · simpa [hc] using h.holdings c

theorem Reamounts.same {j : SlotId} {r r' : Record} {u : State} (h : Reamounts j r r' s t) (part : SamePart t u)
    (body : SameBody t u) : Reamounts j r r' s u where
  slot := (body.slot j).symm ▸ h.slot
  held c := (body.client c).symm ▸ h.held c
  occupied c := (body.client c).symm ▸ h.occupied c
  frame := h.frame.same part body

/-- Driving the lines changes nothing else. -/
theorem driveLines_part (s : State) : SamePart s (driveLines s) := by constructor <;> rfl
theorem driveLines_body (s : State) : SameBody s (driveLines s) := by constructor <;> rfl
theorem driveLines_ports (s : State) : SamePorts s (driveLines s) := ⟨rfl, rfl, rfl⟩

/-- A command refused under its check order answers, and changes nothing else (R60, R172). -/
theorem refused_only_answers {f : State → State × Reply} (settled : s.resetSafe = false)
    (hx : exec i s = command p i f s) (hf : f s = (s, a)) : OnlyAnswers p i a s :=
  ⟨_, hx.trans (command_settled settled hf), respond_answered p i a (SamePorts.refl s), driveLines_driven _,
    respond_part p i a s, respond_body p i a s⟩

/-- The checks of a client command pass. -/
theorem firstFailure_client {c : ClientId} {m : Bool} (h : ClientMayAct p c s) (hm : m = true) :
    firstFailure (clientChecks p c m s) = none := by
  simp [clientChecks, firstFailure, h.port, h.session, hm]

/-- The record that a handle names passes the checks of R4 up to ownership. -/
theorem namedRecord_ok {pre : List (Bool × Result)} {h : Half} {mayName : Record → Bool} {j : SlotId} {r : Record}
    (hp : firstFailure (pre ++ [(handleOk h && true, .range)]) = none)
    (hh : h.toNat = handleOf j (s.slot j).gen) (hr : (s.slot j).record = some r) (ho : mayName r = true) :
    namedRecord pre true h mayName s = .ok (j, r) := by
  unfold namedRecord
  rw [hp, named_of_handle s hh hr]
  simp [ho]

/-- A handle of a slot is in range. -/
theorem handleOk_of {h : Half} {j : SlotId} {g : BitVec 4} (hh : h.toNat = handleOf j g) : handleOk h = true := by
  have := g.isLt
  have := j.isLt
  simp only [handleOk, hh, handleOf, decide_eq_true_eq]
  omega

/-- The handle checks that RELEASE, RESIZE, RENEW and ANSWER share, passed. -/
theorem ownRecord_ok {c : ClientId} {h : Half} {j : SlotId} {r : Record} (may : ClientMayAct p c s)
    (hm : s.mode.serves = true) (hh : h.toNat = handleOf j (s.slot j).gen) (hr : (s.slot j).record = some r)
    (ho : r.owner = c) : ownRecord p c h true s = .ok (j, r) := by
  refine namedRecord_ok ?_ hh hr (by simp [ho])
  simp [clientChecks, firstFailure, may.port, may.session, hm, handleOk_of hh]

/-! ## A RENEW or a RESIZE in flight at a CLOSE_CLIENT (log entry 29) -/

/-- The handle checks of a RENEW or a RESIZE are those of R4, but that one which was overtaken skips the session test. -/
theorem changeRecord_cases (i : Instr) (p : PortId) (c : ClientId) (h : Half) (ok : Bool) (s : State) :
    (wasOvertaken p i s = true ∧ clientMaySend p c = true ∧ s.mode.serves = true ∧
      changeRecord i p c h ok s = namedRecord [] ok h (fun r => decide (r.owner = c)) s) ∨
    (¬ (wasOvertaken p i s = true ∧ clientMaySend p c = true ∧ s.mode.serves = true) ∧
      changeRecord i p c h ok s = ownRecord p c h ok s) := by
  by_cases w : wasOvertaken p i s = true ∧ clientMaySend p c = true ∧ s.mode.serves = true
  · exact .inl ⟨w.1, w.2.1, w.2.2, by simp [changeRecord, w.1, w.2.1, w.2.2]⟩
  · exact .inr ⟨w, by simp only [changeRecord, Bool.and_eq_true, and_assoc, if_neg w]⟩

/-- A client whose session is OPEN meets the checks of R4, in flight or not. -/
theorem changeRecord_open (i : Instr) {c : ClientId} {h : Half} {ok : Bool} (may : ClientMayAct p c s)
    (hm : s.mode.serves = true) : changeRecord i p c h ok s = ownRecord p c h ok s := by
  obtain ⟨-, -, -, e⟩ | ⟨-, e⟩ := changeRecord_cases i p c h ok s
  · rw [e]
    simp [ownRecord, namedRecord, clientChecks, firstFailure, may.port, may.session, hm]
  · exact e

@[simp] theorem overtake_port (d : ClientId) (s : State) (q : PortId) :
    (overtake d s).port q = (s.port q).overtakenBy d s := by cases q <;> rfl

/-- The mark of a CLOSE_CLIENT touches the port units alone, and there the mark alone. -/
theorem overtake_part (d : ClientId) (s : State) : SamePart s (overtake d s) := by constructor <;> rfl
theorem overtake_body (d : ClientId) (s : State) : SameBody s (overtake d s) := by constructor <;> rfl
@[simp] theorem overtake_response (d : ClientId) (s : State) : (overtake d s).response = s.response := rfl
@[simp] theorem PortUnit.overtakenBy_handed (d : ClientId) (s : State) (u : PortUnit) :
    (u.overtakenBy d s).handed = u.handed := rfl

/-- A port whose command in flight loses no record to the close stays as it was. -/
theorem PortUnit.overtakenBy_same (d : ClientId) (s : State) (u : PortUnit)
    (h : ∀ k x, u.handed = some k → changeOf k = some (d, x) →
      (named x s).any (fun y => decide (y.2.owner = d)) = false) :
    u.overtakenBy d s = u := by
  obtain ⟨_, _, _, _, _, handed, _, _, _, _, _⟩ := u
  cases handed with
  | none => simp [PortUnit.overtakenBy]
  | some k =>
    cases e : changeOf k with
    | none => simp [PortUnit.overtakenBy, e]
    | some x =>
      obtain ⟨c, y⟩ := x
      by_cases hc : c = d
      · subst hc
        simp [PortUnit.overtakenBy, e, h k y rfl e]
      · simp [PortUnit.overtakenBy, e, hc]

end Sys2Proof.Machine
end

