-- ==== Sys2Proof/Laws/Decisions.lean ====
section
/-! SUPPORT. The tests of REQUEST, RESIZE and WRITE_SETTING in the words of the statements, and the check orders. -/

namespace Sys2Proof.Machine

variable {s : State}

/-- A check order in two parts. -/
theorem firstFailure_append (a b : List (Bool × Result)) :
    firstFailure (a ++ b) = (firstFailure a).or (firstFailure b) := by
  induction a with
  | nil => rfl
  | cons x xs ih => obtain ⟨ok, e⟩ := x; cases ok <;> simp [firstFailure, ih]

/-- A supervisor command of client 0 on the management port passes R131. -/
theorem SupervisorMayAct.sends {p : PortId} {c : ClientId} (m : SupervisorMayAct p c s) :
    supervisorMaySend p c = true := by
  rw [m.port, m.client]
  rfl

theorem Mode.notSafe_iff (m : Mode) : m.notSafe = true ↔ m ≠ .safe := by cases m <;> simp [Mode.notSafe]

/-- The conditions of immediate admission (R58). -/
theorem fitsNow_iff (a : Ask) (s : State) : fitsNow a s = true ↔ FitsNow a s := by
  constructor
  · intro h
    simp only [fitsNow, Bool.and_eq_true, decide_eq_true_eq, queueBlocks, Bool.not_eq_true',
      List.any_eq_false] at h
    obtain ⟨⟨⟨⟨⟨h₁, h₂⟩, h₃⟩, h₄⟩, h₅⟩, h₆⟩ := h
    exact ⟨h₁, h₂, fun j hj => by simpa using h₃ j hj, h₄, h₅, h₆⟩
  · intro h
    simp only [fitsNow, Bool.and_eq_true, decide_eq_true_eq, queueBlocks, Bool.not_eq_true',
      List.any_eq_false]
    exact ⟨⟨⟨⟨⟨h.run, h.idle⟩, fun j hj => by simpa using h.queue j hj⟩, h.cool⟩, h.ceiling⟩, h.room⟩

/-- The slot that an allocation takes (R5). -/
theorem lowestFree_of {i : SlotId} (h : LowestFree i s) : lowestFree s = some i := by
  unfold lowestFree
  rw [List.find?_eq_some_iff_getElem]
  refine ⟨by simp [h.free], i.val, by simp, by simp, fun j hj => ?_⟩
  have := h.lowest ⟨j, by omega⟩ (by simpa [Fin.lt_def] using hj)
  simpa [Option.isSome_iff_ne_none] using this

/-- A slot is found exactly where one is FREE. -/
theorem lowestFree_isSome (s : State) : (lowestFree s).isSome = decide (∃ j, (s.slot j).record = none) := by
  rw [Bool.eq_iff_iff]
  simp [lowestFree, List.find?_isSome]

theorem requestChecks_pass {c : ClientId} {a : Ask} {i : SlotId} (h : RequestPasses c a s)
    (l : lowestFree s = some i) : firstFailure (requestChecks c a s) = none := by
  simp [requestChecks, firstFailure, h.rights, h.available, h.ceiling, h.quota, h.limit, l]

/-- The channel after an admission, in the words of R111. -/
theorem Channel.gain_eq (now : Tick) (amount : Nat) (x : Channel) :
    x.gain now amount = x.withGrant now amount := by
  unfold Channel.gain Channel.withGrant Channel.firstGrant Channel.beginStart Channel.enter Channel.startedAt
    Channel.sample
  by_cases h : x.live = 0
  · cases hs : x.state <;> simp [h]
  · simp [h]

/-- The tests of an upward RESIZE in the words of R74. -/
theorem growChecks_eq (r : Record) (a : Nat) (s : State) : growChecks r a s = growthTests r a s := by
  unfold growChecks growthTests queueBlocks
  dsimp only
  congr 5
  rw [Bool.eq_iff_iff]
  simp only [Bool.and_eq_true, decide_eq_true_eq, Bool.not_eq_true', List.any_eq_false, not_le]
  tauto

/-- Every row of WRITE_SETTING is the same action, by its key byte (R156). -/
theorem exec_writeOf (p : PortId) (c : ClientId) (key index : Byte) (value : Half) :
    exec (writeOf p c key index value) =
      command p (writeOf p c key index value) (writeAct p c key index value) := by
  have hk : ∀ n, key.toNat = n → key = BitVec.ofNat 8 n := by
    rintro n rfl
    simp
  unfold writeOf
  split
  case h_6 => rfl
  all_goals
    next h =>
      have e := hk _ h
      subst e
      rfl

/-- A stale handle names nothing (R3). -/
theorem named_stale {h : Half}
    (hs : (s.slot (handleSlot h)).record = none ∨ (s.slot (handleSlot h)).gen.toNat ≠ h.toNat / 64) :
    named h s = none := by
  unfold named handleGen
  dsimp only
  rcases hs with e | e <;> simp [e]

end Sys2Proof.Machine
end

