-- ==== Sys2Proof/Laws/Orders.lean ====
section
/-! SUPPORT. The open orders are permutations, and the walks over several records, each said once. -/

namespace Sys2Proof.Machine

theorem insertRanked_perm {α : Type} (rank : α → Nat) (x : α) (l : List α) :
    (insertRanked rank x l).Perm (x :: l) := by
  induction l with
  | nil => exact List.Perm.refl _
  | cons y ys ih =>
    unfold insertRanked
    split
    · exact List.Perm.refl _
    · exact (List.Perm.cons y ih).trans (List.Perm.swap x y ys)

/-- Whatever the ranks, an open order takes each thing once (log entry 9). -/
theorem orderBy_perm {α : Type} (rank : α → Nat) (l : List α) : (orderBy rank l).Perm l := by
  induction l with
  | nil => exact List.Perm.refl _
  | cons x xs ih => exact (insertRanked_perm rank x _).trans (List.Perm.cons x ih)

theorem openOrder_perm (slots : List SlotId) (s : State) : (openOrder slots s).Perm slots := orderBy_perm _ _

@[simp] theorem mem_openOrder {i : SlotId} {slots : List SlotId} {s : State} :
    i ∈ openOrder slots s ↔ i ∈ slots :=
  (openOrder_perm slots s).mem_iff

/-- The slots whose records satisfy a test. -/
@[simp] theorem mem_slotsWhere {f : Record → Bool} {i : SlotId} {s : State} :
    i ∈ slotsWhere f s ↔ (s.slot i).record.any f = true := by
  simp [slotsWhere]

theorem slotsWhere_nodup (f : Record → Bool) (s : State) : (slotsWhere f s).Nodup :=
  (List.nodup_finRange 64).filter _

/-- What every single act keeps, acting on several records keeps. -/
theorem overRecords_keeps {f : SlotId → Record → State → State} {P : State → Prop} {l : List SlotId} {s : State}
    (hs : P s) (step : ∀ i r t, i ∈ l → (t.slot i).record = some r → P t → P (f i r t)) :
    P (overRecords f l s) := by
  induction l generalizing s with
  | nil => exact hs
  | cons i rest ih =>
    have next : ∀ j r t, j ∈ rest → (t.slot j).record = some r → P t → P (f j r t) :=
      fun j r t hj => step j r t (List.mem_cons_of_mem _ hj)
    unfold overRecords
    split
    · next r hr => exact ih (step i r s List.mem_cons_self hr hs) next
    · exact ih hs next

/-- A change of the effective budget is handed on; an unchanged one is not (R47, R49). -/
theorem rebudget_cases (s : State) :
    (budgetNow s = s.budget ∧ rebudget s = s) ∨
    (budgetNow s ≠ s.budget ∧
      rebudget s = handOn true (decide (s.budget < budgetNow s)) { s with budget := budgetNow s }) := by
  by_cases h : budgetNow s = s.budget
  · exact .inl ⟨h, by simp [rebudget, h]⟩
  · exact .inr ⟨h, by simp [rebudget, h]⟩

/-- A recomputed budget leaves what a hand-off leaves, from the state with the new budget. -/
theorem rebudget_handOff (s : State) : HandOff { s with budget := budgetNow s } (rebudget s) := by
  obtain ⟨h, e⟩ | ⟨-, e⟩ := rebudget_cases s
  · rw [e, h]
    exact HandOff.refl s
  · rw [e]
    exact handOn_handOff _ _ _

end Sys2Proof.Machine
end

