-- ==== Sys2Proof/Laws/PerInstr.lean ====
section
/-! SUPPORT. Statements for all rows, one lemma per constructor of `Instr`. -/

namespace Sys2Proof.Laws.PayloadRoundTrip

/-- The payload of a command row has a length that Table 48 allows for its command code, and the command that a
frame with this code and this payload hands on is the row itself. -/
def Statement (i : Instr) : Prop :=
  i.wellFormed = true → ∀ p c code payload, commandParts i = some (p, c, code, payload) →
    payload.length ∈ payloadLengths code ∧ commandOf p c code payload = .handsOn i

/-- The two bytes of a field, joined. -/
theorem half_join (h : Half) : h.extractLsb' 8 8 ++ h.extractLsb' 0 8 = h := by
  ext k hk
  simp only [BitVec.getElem_append, BitVec.getElem_extractLsb', Nat.zero_add]
  split
  · simp [BitVec.getLsbD_eq_getElem, hk]
  · rw [show 8 + (k - 8) = k by omega, BitVec.getLsbD_eq_getElem hk]

/-- The two halves of a field, joined. -/
theorem quad_join (q : Quad) : q.extractLsb' 16 16 ++ q.extractLsb' 0 16 = q := by
  ext k hk
  simp only [BitVec.getElem_append, BitVec.getElem_extractLsb', Nat.zero_add]
  split
  · simp [BitVec.getLsbD_eq_getElem, hk]
  · rw [show 16 + (k - 16) = k by omega, BitVec.getLsbD_eq_getElem hk]

/-- The four bytes of a field, joined. -/
theorem quad_join' (q : Quad) :
    ((q.extractLsb' 16 16).extractLsb' 8 8 ++ (q.extractLsb' 16 16).extractLsb' 0 8)
      ++ ((q.extractLsb' 0 16).extractLsb' 8 8 ++ (q.extractLsb' 0 16).extractLsb' 0 8) = q := by
  rw [half_join, half_join, quad_join]

theorem parts {p p' : PortId} {c c' : ClientId} {k k' : Byte} {l l' : List Byte}
    (h : (some (p, c, k, l) : Option (PortId × ClientId × Byte × List Byte)) = some (p', c', k', l')) :
    p = p' ∧ c = c' ∧ k = k' ∧ l = l' := by
  cases h
  exact ⟨rfl, rfl, rfl, rfl⟩

/-- A row that is no command has no payload. -/
theorem of_none {i : Instr} (h : commandParts i = none) : Statement i := by
  intro _ p c code payload e
  rw [h] at e
  cases e

/-- A row whose parts are known. -/
theorem of_parts {i : Instr} {p : PortId} {c : ClientId} {code : Byte} {payload : List Byte}
    (h : commandParts i = some (p, c, code, payload)) (len : payload.length ∈ payloadLengths code)
    (of : commandOf p c code payload = .handsOn i) : Statement i := by
  intro _ p' c' code' payload' e
  rw [h] at e
  obtain ⟨rfl, rfl, rfl, rfl⟩ := parts e
  exact ⟨len, of⟩

theorem request (p : PortId) (c : ClientId) (channel : Byte) (amount : Half) (cls flags : Byte) (lease :
    Quad) (floor timeout tag : Half) :
    Statement (.request p c channel amount cls flags lease floor timeout tag) := by
  refine of_parts rfl (.head _) ?_
  refine congrArg FrameCheck.handsOn (?_ : Instr.request p c channel _ cls flags _ _ _ _ = _)
  exact congr (congr (congr (congr (congrArg (fun a q => Instr.request p c channel a cls flags q)
    (half_join amount)) (quad_join' lease)) (half_join floor)) (half_join timeout)) (half_join tag)

theorem release (p : PortId) (c : ClientId) (handle : Half) :
    Statement (.release p c handle) :=
  of_parts rfl (.head _)
    (congrArg (fun h => FrameCheck.handsOn (.release p c h)) (half_join handle))

theorem resize (p : PortId) (c : ClientId) (handle amount : Half) :
    Statement (.resize p c handle amount) :=
  of_parts rfl (.head _)
    (congrArg₂ (fun h a => FrameCheck.handsOn (.resize p c h a)) (half_join handle) (half_join amount))

theorem renew (p : PortId) (c : ClientId) (handle : Half) :
    Statement (.renew p c handle) :=
  of_parts rfl (.head _)
    (congrArg (fun h => FrameCheck.handsOn (.renew p c h)) (half_join handle))

theorem answerAck (p : PortId) (c : ClientId) (handle : Half) :
    Statement (.answerAck p c handle) :=
  of_parts rfl (.head _)
    (congrArg (fun h => FrameCheck.handsOn (.answerAck p c h)) (half_join handle))

theorem answerNak (p : PortId) (c : ClientId) (handle : Half) :
    Statement (.answerNak p c handle) :=
  of_parts rfl (.head _)
    (congrArg (fun h => FrameCheck.handsOn (.answerNak p c h)) (half_join handle))

theorem answerBusy (p : PortId) (c : ClientId) (fields : AnswerFields) :
    Statement (.answerBusy p c fields) := by
  obtain ⟨handle, answer⟩ := fields
  intro wf p' c' code payload h
  obtain ⟨rfl, rfl, rfl, rfl⟩ := parts h
  have k : ∀ n, answer.toNat = n → answer = BitVec.ofNat 8 n := by
    rintro n rfl
    simp
  refine ⟨.head _, ?_⟩
  have w : answerOf p c handle answer = .answerBusy p c { handle := handle, answer := answer } := by
    unfold answerOf
    split
    case h_3 => rfl
    all_goals
      next e =>
        rw [k _ e] at wf
        cases wf
  exact (congrArg (fun h => FrameCheck.handsOn (answerOf p c h answer)) (half_join handle)).trans
    (congrArg FrameCheck.handsOn w)

theorem query (p : PortId) (c : ClientId) (handle : Half) :
    Statement (.query p c handle) :=
  of_parts rfl (.head _)
    (congrArg (fun h => FrameCheck.handsOn (.query p c h)) (half_join handle))

theorem list (p : PortId) (c : ClientId) (filters client channel first : Byte) :
    Statement (.list p c filters client channel first) :=
  of_parts rfl (.head _) rfl

theorem nextNotice (p : PortId) (c : ClientId) :
    Statement (.nextNotice p c) :=
  of_parts rfl (.head _) rfl

theorem clientStatus (p : PortId) (c : ClientId) (target : Option Byte) :
    Statement (.clientStatus p c target) := by
  cases target
  · exact of_parts rfl (.head _) rfl
  · exact of_parts rfl (.tail _ (.head _)) rfl

theorem openClient (p : PortId) (c : ClientId) (client : Byte) (quota : Half) (limit best attention : Byte) :
    Statement (.openClient p c client quota limit best attention) :=
  of_parts rfl (.head _)
    (congrArg (fun h => FrameCheck.handsOn (.openClient p c client h limit best attention)) (half_join quota))

theorem closeClient (p : PortId) (c : ClientId) (client : Byte) :
    Statement (.closeClient p c client) :=
  of_parts rfl (.head _) rfl

theorem forceRetire (p : PortId) (c : ClientId) (handle : Half) :
    Statement (.forceRetire p c handle) :=
  of_parts rfl (.head _)
    (congrArg (fun h => FrameCheck.handsOn (.forceRetire p c h)) (half_join handle))

theorem writeTierBudget (p : PortId) (c : ClientId) (index : Byte) (value : Half) :
    Statement (.writeTierBudget p c index value) :=
  of_parts rfl (.head _)
    (congrArg (fun h => FrameCheck.handsOn (.writeTierBudget p c index h)) (half_join value))

theorem writeBudgetCap (p : PortId) (c : ClientId) (index : Byte) (value : Half) :
    Statement (.writeBudgetCap p c index value) :=
  of_parts rfl (.head _)
    (congrArg (fun h => FrameCheck.handsOn (.writeBudgetCap p c index h)) (half_join value))

theorem writeReserve0 (p : PortId) (c : ClientId) (index : Byte) (value : Half) :
    Statement (.writeReserve0 p c index value) :=
  of_parts rfl (.head _)
    (congrArg (fun h => FrameCheck.handsOn (.writeReserve0 p c index h)) (half_join value))

theorem writeEventMask (p : PortId) (c : ClientId) (index : Byte) (value : Half) :
    Statement (.writeEventMask p c index value) :=
  of_parts rfl (.head _)
    (congrArg (fun h => FrameCheck.handsOn (.writeEventMask p c index h)) (half_join value))

theorem writeChEnable (p : PortId) (c : ClientId) (index : Byte) (value : Half) :
    Statement (.writeChEnable p c index value) :=
  of_parts rfl (.head _)
    (congrArg (fun h => FrameCheck.handsOn (.writeChEnable p c index h)) (half_join value))

theorem writeSetting (p : PortId) (c : ClientId) (key index : Byte) (value : Half) :
    Statement (.writeSetting p c key index value) := by
  intro wf p' c' code payload h
  obtain ⟨rfl, rfl, rfl, rfl⟩ := parts h
  have k : ∀ n, key.toNat = n → key = BitVec.ofNat 8 n := by
    rintro n rfl
    simp
  refine ⟨.head _, ?_⟩
  have w : writeOf p c key index value = .writeSetting p c key index value := by
    unfold writeOf
    split
    case h_6 => rfl
    all_goals
      next e =>
        rw [k _ e] at wf
        cases wf
  exact (congrArg (fun h => FrameCheck.handsOn (writeOf p c key index h)) (half_join value)).trans
    (congrArg FrameCheck.handsOn w)

theorem readSetting (p : PortId) (c : ClientId) (key index : Byte) :
    Statement (.readSetting p c key index) :=
  of_parts rfl (.head _) rfl

theorem start (p : PortId) (c : ClientId) :
    Statement (.start p c) :=
  of_parts rfl (.head _) rfl

theorem hold (p : PortId) (c : ClientId) :
    Statement (.hold p c) :=
  of_parts rfl (.head _) rfl

theorem resume (p : PortId) (c : ClientId) :
    Statement (.resume p c) :=
  of_parts rfl (.head _) rfl

theorem enterSafe (p : PortId) (c : ClientId) :
    Statement (.enterSafe p c) :=
  of_parts rfl (.head _) rfl

theorem restart (p : PortId) (c : ClientId) :
    Statement (.restart p c) :=
  of_parts rfl (.head _) rfl

theorem unlockChannel (p : PortId) (c : ClientId) (channel : Byte) :
    Statement (.unlockChannel p c channel) :=
  of_parts rfl (.head _) rfl

theorem readStatus (p : PortId) (c : ClientId) :
    Statement (.readStatus p c) :=
  of_parts rfl (.head _) rfl

theorem readChannel (p : PortId) (c : ClientId) (channel : Byte) :
    Statement (.readChannel p c channel) :=
  of_parts rfl (.head _) rfl

theorem clearEvents (p : PortId) (c : ClientId) (flags : Byte) :
    Statement (.clearEvents p c flags) :=
  of_parts rfl (.head _) rfl

theorem writeTransaction (bus : Bus) (bytes : List Byte) :
    Statement (.writeTransaction bus bytes) :=
  of_none rfl

theorem readTransaction (bus : Bus) (count : Nat) :
    Statement (.readTransaction bus count) :=
  of_none rfl

theorem directionByteRefused (direction : Byte) (count : Nat) :
    Statement (.directionByteRefused direction count) :=
  of_none rfl

theorem responsePlaced (p : PortId) :
    Statement (.responsePlaced p) :=
  of_none rfl

theorem tick :
    Statement (.tick) :=
  of_none rfl

theorem leaseExpiry (slot : SlotId) :
    Statement (.leaseExpiry slot) :=
  of_none rfl

theorem waitExpiry (slot : SlotId) :
    Statement (.waitExpiry slot) :=
  of_none rfl

theorem noticeExpiry (slot : SlotId) :
    Statement (.noticeExpiry slot) :=
  of_none rfl

theorem startTimeout (n : ChannelId) :
    Statement (.startTimeout n) :=
  of_none rfl

theorem dischargeExpiry (n : ChannelId) :
    Statement (.dischargeExpiry n) :=
  of_none rfl

theorem cooldownExpiry (n : ChannelId) :
    Statement (.cooldownExpiry n) :=
  of_none rfl

theorem cleanExpiry (n : ChannelId) :
    Statement (.cleanExpiry n) :=
  of_none rfl

theorem settleExpiry :
    Statement (.settleExpiry) :=
  of_none rfl

theorem lineChange (value : Tier) :
    Statement (.lineChange value) :=
  of_none rfl

theorem powerGood (n : ChannelId) :
    Statement (.powerGood n) :=
  of_none rfl

theorem powerLoss (n : ChannelId) :
    Statement (.powerLoss n) :=
  of_none rfl

theorem trip (n : ChannelId) :
    Statement (.trip n) :=
  of_none rfl

theorem fltRise (n : ChannelId) :
    Statement (.fltRise n) :=
  of_none rfl

theorem safeNFall :
    Statement (.safeNFall) :=
  of_none rfl

theorem safeNRise :
    Statement (.safeNRise) :=
  of_none rfl

theorem powerOn (pins : Pins) :
    Statement (.powerOn pins) :=
  of_none rfl

theorem pinReset (pins : Pins) :
    Statement (.pinReset pins) :=
  of_none rfl

theorem resetSafeEntry :
    Statement (.resetSafeEntry) :=
  of_none rfl

theorem sampledLineEvent (n : ChannelId) :
    Statement (.sampledLineEvent n) :=
  of_none rfl

end Sys2Proof.Laws.PayloadRoundTrip
end

