-- ==== Sys2Proof/Tests/Slice0.lean ====
section
/-! SUPPORT. Tests. Expected values come from the manual: its tables, its worked sequences, and the check values
of R165. The states are small, built by the helpers below, and every test is about one step. -/

namespace Sys2Proof.Tests

open Sys2Proof.Machine

set_option Elab.async false

/-! ## Form, frames and words -/

theorem test_refused_direction_byte_is_wellFormed :
    (Instr.directionByteRefused 0x03 5).wellFormed = true := by decide
theorem test_direction_byte_one_is_illFormed : (Instr.directionByteRefused 0x01 5).wellFormed = false := by decide
theorem test_direction_byte_two_is_illFormed : (Instr.directionByteRefused 0x02 5).wellFormed = false := by decide
theorem test_write_of_tierSettle_is_wellFormed :
    (Instr.writeSetting .management 0 0x04 0 20).wellFormed = true := by decide
theorem test_answer_with_own_row_is_illFormed :
    (Instr.answerBusy .client 1 { handle := 0, answer := 1 }).wellFormed = false := by decide
theorem test_write_with_own_row_is_illFormed :
    (Instr.writeSetting .management 0 0x10 0 1).wellFormed = false := by decide

/-- The first check value of R165. -/
theorem test_crc_of_check_text :
    crc [0x31, 0x32, 0x33, 0x34, 0x35, 0x36, 0x37, 0x38, 0x39] = 0xF4 := by decide +kernel

/-- The START frame of R165. -/
theorem test_start_frame_hands_on :
    checkFrame .management [0x25, 0x00, 0x00, 0x83] = .handsOn (.start .management 0) := by decide +kernel
theorem test_wrong_crc_is_badFrame : checkFrame .management [0x25, 0x00, 0x00, 0x82] = .badFrame := by
  decide +kernel
/-- Table of R162: the direction byte picks the row, a partial byte is discarded, and a cut transaction is no event. -/
theorem test_direction_byte_picks_the_row :
    [Transfer.spi [0x01, 0x25] 3, .spi [0x02, 0, 0] 0, .spi [0x03, 9] 7, .spi [] 7].map Transfer.row =
      [some (.writeTransaction .spi [0x25]), some (.readTransaction .spi 2), some (.directionByteRefused 0x03 1),
        none] := by decide
theorem test_direction_bit_picks_the_row :
    [Transfer.i2c 0x38 0 [0x25], .i2c 0x38 1 [0, 0]].map Transfer.row =
      [some (.writeTransaction (.i2c 0x38) [0x25]), some (.readTransaction (.i2c 0x38) 2)] := by decide
theorem test_no_word_spells_a_command : decodeTableWord 16 0x2500 = none := by decide

/-! ## States -/

/-- What a step leaves. -/
def after (i : Instr) (s : State) : State :=
  match exec i s with
  | .next t => t
  | _ => s

/-- The response that a command leaves. -/
def answer (i : Instr) (s : State) : Option Result := (after i s).response.map fun x => x.2.result

/-- Client 1's entry once it is opened. -/
def opened : Client := { Client.closed with isOpen := true, quota := 2000, limit := 4, best := 1, attention := true }

/-- RUN with a budget of 1000 dW in tier 0, channel 0 enabled and OFF, clients 0 and 1 open. -/
def ready : State :=
  { State.reset with
    mode := .run, budget := 1000
    settings := { Settings.reset with tierBudget := #v[1000, 400, 0, 0] }
    clients := (Vector.replicate 16 Client.closed).set 0 { opened with quota := 20000, limit := 16, best := 0,
                                                                       attention := false } |>.set 1 opened
    channels := (Vector.replicate 24 (Channel.reset false true)).set 0
      { Channel.reset false true with state := .off, profile := { Profile.reset with enable := true } } }

/-- Client 1 asks for 300 dW on channel 0, class 2, leased for 500 ms, with a floor of 100 dW. -/
def ask : Instr := .request .client 1 0 300 2 0x05 500 100 0 7

/-- `ready` with that request admitted: slot 0 is live and channel 0 is STARTING. -/
def held : State := after ask ready

theorem test_request_is_ok : answer ask ready = some .ok := by decide +kernel
theorem test_request_starts_the_channel :
    ((held.channel 0).state, (held.channel 0).en, (held.channel 0).timer) = (.starting, true, some (.start, 20)) := by
  decide +kernel

/-- The record of `ask`. -/
def grant : Record :=
  { owner := 1, channel := 0, amount := 300, floor := some 100, cls := 2, kind := .leased 500, tag := 7,
    phase := .live false (some 500) none, kinds := {} }

theorem held_record : (held.slot 0).record = some grant := by decide +kernel

/-- A request for 800 dW that may wait, behind the grant of `held`: it waits in slot 1 without a timeout. -/
def askMore : Instr := .request .client 1 0 800 2 0x02 0 0 0 8
def waiting : State := after askMore held
def waiter : Record :=
  { owner := 1, channel := 0, amount := 800, floor := none, cls := 2, kind := .standing, tag := 8,
    phase := .queued none, kinds := {} }
theorem waiting_record : (waiting.slot 1).record = some waiter := by decide +kernel

/-- The same with a wait timeout of 10 ms. -/
def askBriefly : Instr := .request .client 1 0 800 2 0x0A 0 0 10 8
def waitingBriefly : State := after askBriefly held

/-- `held` after the budget of tier 0 falls to 200 dW: the grant is NOTICED with required amount 200 dW. -/
def noticed : State := after (.writeTierBudget .management 0 0 200) held
def notice : Notice := { required := 200, deadline := 200, busy := 0 }
def noticedGrant : Record := { grant with phase := .live false (some 500) (some notice), kinds := { reduce := true } }
theorem noticed_record : (noticed.slot 0).record = some noticedGrant := by decide +kernel

/-- `held` after the budget of tier 0 falls to 50 dW: the floor does not allow it, and the required amount is 0. -/
def noticedWhole : State := after (.writeTierBudget .management 0 0 50) held
def wholeGrant : Record :=
  { noticedGrant with phase := .live false (some 500) (some { notice with required := 0 }) }
theorem noticedWhole_record : (noticedWhole.slot 0).record = some wholeGrant := by decide +kernel

/-- `held` with the grant force-retired: a tombstone in slot 0. -/
def buried : State := after (.forceRetire .management 0 0) held
def tombstone : Record := { grant with phase := .retired .forced, kinds := { retired := true } }
theorem buried_record : (buried.slot 0).record = some tombstone := by decide +kernel

/-- `noticed` with its notice expired. -/
def revoked : State := after (.noticeExpiry 0) { noticed with tick := 200 }

/-- `held` with its channel powered good. -/
def powered : State := after (.powerGood 0) held

/-- A channel that a fault locks: lockout 1. -/
def brittle : State :=
  held.setChannel 0 { held.channel 0 with profile := { (held.channel 0).profile with lockout := 1 } }

/-- A part whose channel 0 is LOCKED and empty. -/
def locked : State := ready.setChannel 0 { ready.channel 0 with state := .locked, faultCount := 3, cause := .trip }

/-- A part whose channel 0 is ENABLED, in CONFIG. -/
def configured : State := { ready with mode := .config, clients := Vector.replicate 16 Client.closed }

/-! ## One step of every row -/

theorem test_request_record_keeps_its_floor : ((held.slot 0).record.map Record.floor) = some (some 100) := by
  decide +kernel
theorem test_request_that_may_not_wait_is_noRoom :
    answer (.request .client 1 0 800 2 0 0 0 0 8) held = some .noRoom := by decide +kernel
theorem test_release_frees_the_slot :
    (after (.release .client 1 0) held).slot 0 = { gen := 1, record := none } := by decide +kernel
theorem test_release_admits_the_waiter :
    (after (.release .client 1 0) waiting).admission = [1] := by decide +kernel
theorem test_resize_down_drops_the_floor :
    ((after (.resize .client 1 0 100) held).slot 0).record.map (fun r => (r.amount, r.floor)) = some (100, none) := by
  decide +kernel
theorem test_resize_up_takes_the_whole_headroom :
    (after (.resize .client 1 0 1000) held).committed = 1000 := by decide +kernel
theorem test_renew_answers_the_new_deadline :
    (after (.renew .client 1 0) { held with tick := 0x100 }).response =
      some (.client, { result := .ok, payload := [0, 0, 2, 0xF4] }) := by decide +kernel
/-- R36, R76: a RENEW or a RESIZE that the client port has handed on when the close frees its record. -/
def inFlight (i : Instr) : State :=
  { held with clientPort := { held.clientPort with state := .executing, handed := some i } }
theorem test_renew_in_flight_is_stale_after_a_close :
    answer (.renew .client 1 0) (after (.closeClient .management 0 1) (inFlight (.renew .client 1 0))) = some .stale ∧
      answer (.resize .client 1 0 100) (after (.closeClient .management 0 1) (inFlight (.resize .client 1 0 100))) =
        some .stale := by decide +kernel
/-- R132, R136: one that arrives after the close, and any other command in flight, is CLOSED. -/
theorem test_renew_after_a_close_is_closed :
    answer (.renew .client 1 0) (after (.closeClient .management 0 1) held) = some .closed ∧
      answer (.release .client 1 0) (after (.closeClient .management 0 1) (inFlight (.release .client 1 0))) =
        some .closed := by decide +kernel
theorem test_ack_lowers_the_amount :
    (after (.answerAck .client 1 0) noticed).committed = 200 := by decide +kernel
theorem test_ack_of_zero_frees :
    (after (.answerAck .client 1 0) noticedWhole).slot 0 = { gen := 1, record := none } := by decide +kernel
theorem test_nak_frees : answer (.answerNak .client 1 0) noticed = some .revoked := by decide +kernel
theorem test_busy_extends :
    answer (.answerBusy .client 1 { handle := 0, answer := 2 }) noticed = some .extended := by decide +kernel
/-- R89: an answer that is none of ACK, NAK and BUSY is out of range. -/
theorem test_answer_3_is_range :
    answer (.answerBusy .client 1 { handle := 0, answer := 3 }) noticed = some .range := by decide +kernel
theorem test_busy_at_the_limit_frees :
    answer (.answerBusy .client 1 { handle := 0, answer := 2 }) { noticed with settings := { noticed.settings with busyLimit := 0 } } =
      some .revoked := by decide +kernel
theorem test_late_answer_is_tooLate : answer (.answerAck .client 1 0) revoked = some .tooLate := by decide +kernel
theorem test_query_has_34_bytes :
    (after (.query .client 1 0) held).response.map (fun x => x.2.payload.length) = some 34 := by decide +kernel
theorem test_list_counts_and_names :
    (after (.list .client 1 0 0 0 0) waiting).response.map (fun x => x.2.payload) = some [2, 0, 0, 0, 1] := by
  decide +kernel
theorem test_next_notice_reaps_the_tombstone :
    (after (.nextNotice .client 1) buried).slot 0 = { gen := 1, record := none } := by decide +kernel
theorem test_next_notice_of_an_empty_queue :
    (after (.nextNotice .client 1) held).response = some (.client, { result := .ok }) := by decide +kernel
theorem test_client_status_of_another_is_notOwner :
    answer (.clientStatus .client 1 (some 2)) held = some .notOwner := by decide +kernel
theorem test_open_client_with_limit_17_is_range :
    answer (.openClient .management 0 2 100 17 0 0) ready = some .range := by decide +kernel
theorem test_open_client_opens : ((after (.openClient .management 0 2 100 16 0 0) ready).client 2).isOpen = true := by
  decide +kernel
theorem test_close_client_answers_count_and_held :
    (after (.closeClient .management 0 1) waiting).response.map (fun x => x.2.payload) = some [2, 4, 0x4C] := by
  decide +kernel
theorem test_force_retire_leaves_a_tombstone : (buried.slot 0).record = some tombstone := buried_record
theorem test_tier_budget_write_sheds : (noticed.shed, noticed.relief) = (.shedding, 100) := by decide +kernel
theorem test_budget_cap_write_lowers_the_budget :
    (after (.writeBudgetCap .management 0 0 700) ready).budget = 700 := by decide +kernel
theorem test_reserve_write_keeps_the_budget :
    (after (.writeReserve0 .management 0 0 400) ready).budget = 1000 := by decide +kernel
theorem test_event_mask_above_7F_is_range :
    answer (.writeEventMask .management 0 0 0x80) ready = some .range := by decide +kernel
theorem test_enable_no_disables_an_off_channel :
    ((after (.writeChEnable .management 0 0 0) ready).channel 0).state = .disabled := by decide +kernel
theorem test_ceiling_write_of_a_channel_in_use_is_badState :
    answer (.writeSetting .management 0 0x11 0 500) held = some .badState := by decide +kernel
theorem test_read_setting_of_tier_1 :
    (after (.readSetting .management 0 0x01 1) ready).response =
      some (.management, { result := .ok, payload := [1, 0x90] }) := by decide +kernel
theorem test_start_opens_client_0 :
    ((after (.start .management 0) configured).client 0).quota = 20000 := by decide +kernel
theorem test_hold_is_hold : (after (.hold .management 0) ready).mode = .hold := by decide +kernel
theorem test_resume_admits_the_waiter :
    (after (.resume .management 0) { after (.release .client 1 0) { waiting with mode := .hold } with
      mode := .hold }).admission = [1] := by decide +kernel
theorem test_enter_safe_frees_every_slot :
    (after (.enterSafe .management 0) held).slot 0 = { gen := 1, record := none } := by decide +kernel
theorem test_restart_keeps_safe_entered :
    (after (.restart .management 0) { ready with flags := 0x7F }).flags = 0x40 := by decide +kernel
theorem test_unlock_keeps_the_cause :
    ((after (.unlockChannel .management 0 0) locked).channel 0).cause = .trip := by decide +kernel
theorem test_read_status_has_26_bytes :
    (after (.readStatus .management 0) held).response.map (fun x => x.2.payload.length) = some 26 := by
  decide +kernel
theorem test_read_channel_of_24_is_range : answer (.readChannel .management 0 24) ready = some .range := by
  decide +kernel
theorem test_clear_events_answers_what_is_left :
    (after (.clearEvents .management 0 0x0F) { ready with flags := 0x7F }).response =
      some (.management, { result := .ok, payload := [0x70] }) := by decide +kernel
theorem test_write_transaction_hands_on_start :
    (after (.writeTransaction (.i2c 0x38) [0x25, 0x00, 0x00, 0x83]) configured).managementPort.handed =
      some (.start .management 0) := by decide +kernel
theorem test_short_frame_is_rejected :
    ((after (.writeTransaction .spi [0x25]) ready).clientPort.rejected,
      (after (.writeTransaction .spi [0x25]) ready).flags) = (1, 0x20) := by decide +kernel
theorem test_read_of_an_idle_port_is_noResponse :
    (after (.readTransaction .spi 2) ready).clientPort.shifted = [0, 0xFE, 0xFE] := by decide +kernel
/-- R163: the address and the four bytes written are acknowledged. -/
theorem test_i2c_write_is_acknowledged :
    (after (.writeTransaction (.i2c 0x38) [0x25, 0x00, 0x00, 0x83]) configured).managementPort.acked = 5 := by
  decide +kernel
theorem test_direction_byte_counts : (after (.directionByteRefused 0 3) ready).clientPort.rejected = 1 := by
  decide +kernel
theorem test_response_placed_makes_the_port_ready :
    (after (.responsePlaced .management) (after (.start .management 0)
      (after (.writeTransaction (.i2c 0x38) [0x25, 0x00, 0x00, 0x83]) configured))).managementPort.buffer.take 4 =
      [0x00, 0x25, 0x00, 0x00] := by decide +kernel
theorem test_tick_wraps : (after .tick { ready with tick := 0xFFFFFFFF }).tick = 0 := by decide +kernel
/-- Table 11: a deadline of 204 set across the wrap. -/
theorem test_due_test_of_table_11 :
    ([4294967000, 4294967295, 0, 100, 203, 204, 300].map fun now => dueAt now 204) =
      [false, false, false, false, false, true, true] := by decide +kernel
theorem test_lease_expiry_retires :
    ((after (.leaseExpiry 0) { held with tick := 500 }).slot 0).record.map Record.phase =
      some (.retired .leaseExpired) := by decide +kernel
theorem test_lease_expiry_before_its_time_does_nothing :
    (after (.leaseExpiry 0) { held with tick := 499 }).slots = held.slots := by decide +kernel
theorem test_wait_expiry_retires :
    ((after (.waitExpiry 1) { waitingBriefly with tick := 10 }).slot 1).record.map Record.phase =
      some (.retired .waitExpired) := by decide +kernel
theorem test_notice_expiry_retires :
    (revoked.slot 0).record.map Record.phase = some (.retired .revokedTimeout) := by decide +kernel
theorem test_start_timeout_faults :
    ((after (.startTimeout 0) { held with tick := 20 }).channel 0).state = .faulted := by decide +kernel
theorem test_discharge_expiry_without_grants_is_off :
    ((after (.dischargeExpiry 0) { after (.release .client 1 0) held with tick := 10 }).channel 0).state = .off := by
  decide +kernel
theorem test_cooldown_expiry_is_off :
    ((after (.cooldownExpiry 0) { after (.trip 0) held with tick := 1000 }).channel 0).state = .off := by
  decide +kernel
theorem test_clean_expiry_clears_the_count :
    ((after (.cleanExpiry 0) ({ powered with tick := 10000 }.setChannel 0
      { powered.channel 0 with faultCount := 2 })).channel 0).faultCount = 0 := by decide +kernel
theorem test_line_change_starts_the_settle :
    ((after (.lineChange 1) ready).pendingTier, (after (.lineChange 1) ready).settleTimer) = (some 1, some 20) := by
  decide +kernel
theorem test_settle_expiry_selects :
    ((after .settleExpiry { after (.lineChange 1) ready with tick := 20 }).selected,
      (after .settleExpiry { after (.lineChange 1) ready with tick := 20 }).budget) = (1, 400) := by decide +kernel
theorem test_power_good_marks_powered : ((powered.slot 0).record.map Record.powered) = some true := by
  decide +kernel
theorem test_power_loss_in_on_faults : ((after (.powerLoss 0) powered).channel 0).cause = .powerLost := by
  decide +kernel
theorem test_trip_retires_the_grants :
    ((after (.trip 0) held).slot 0).record.map Record.phase = some (.retired .channelFault) := by decide +kernel
theorem test_trip_locks_at_the_lockout_count : ((after (.trip 0) brittle).channel 0).state = .locked := by
  decide +kernel
theorem test_flt_rise_changes_the_level :
    ((after (.fltRise 0) (after (.trip 0) held)).channel 0).fltN = true := by decide +kernel
/-- R107: an ignored line change is no claim, and makes no safe entry that a reset left due. -/
theorem test_ignored_trip_is_no_claim :
    (after (.trip 0) { ready with mode := .config, resetSafe := true }).mode = .config := by decide +kernel
theorem test_safe_fall_is_safe : (after .safeNFall held).mode = .safe := by decide +kernel
theorem test_safe_rise_leaves_safe_alone : (after .safeNRise (after .safeNFall held)).mode = .safe := by
  decide +kernel
theorem test_power_on_selects_the_lines :
    (after (.powerOn { tier := 2, safeN := true, addr := true, pg := 0, fltN := 0xFFFFFF }) held).selected = 2 := by
  decide +kernel
theorem test_pin_reset_samples_addr :
    (after (.pinReset { tier := 2, safeN := true, addr := true, pg := 0, fltN := 0xFFFFFF }) held).address = 0x39 := by
  decide +kernel
theorem test_reset_safe_entry_is_safe :
    (after .resetSafeEntry { State.reset with resetSafe := true }).mode = .safe := by decide +kernel
theorem test_sampled_power_good_powers :
    ((after (.sampledLineEvent 0) (held.setChannel 0
      { held.channel 0 with pg := true, sampled := some .powerGood })).channel 0).state = .on := by decide +kernel
theorem test_step_takes_the_front :
    (match step { ready with pending := [.tick, .safeNFall] } with
      | .next t => (t.tick, t.mode, t.pending)
      | _ => (0, .safe, [])) = (1, .run, [.safeNFall]) := by decide +kernel

/-! ## Witnesses: a state and operands that meet the hypotheses of each statement, clause by clause and at the
boundary values of their ranges -/

/-- `exec` answers a next state. -/
def completes (i : Instr) (s : State) : Bool :=
  match exec i s with
  | .next _ => true
  | _ => false

theorem next_of_completes {i : Instr} {s : State} (h : completes i s = true) : ∃ t, exec i s = .next t := by
  unfold completes at h
  split at h
  · exact ⟨_, ‹_›⟩
  · cases h

theorem records_of_all {P : Record → Prop} {s : State} (f : Record → Bool) (hf : ∀ r, f r = true → P r)
    (h : ∀ i, (s.slot i).record.all f = true) (i : SlotId) (r : Record) (hr : (s.slot i).record = some r) : P r :=
  hf r (by simpa [hr] using h i)

/-- The management port carries a client's commands too. -/
theorem client_1_may_act_on_management : ClientMayAct .management 1 held :=
  ⟨rfl, by decide +kernel, by decide +kernel⟩

theorem supervisor_may_act (s : State) (h : s.resetSafe = false) : SupervisorMayAct .management 0 s := ⟨rfl, rfl, h⟩

/-- Slot 0 of each of the states above is client 1's. -/
theorem names_slot_0 (s : State) (r : Record) (h : (s.client 1).isOpen = true) (h' : s.resetSafe = false)
    (hm : s.mode.serves = true) (hg : (s.slot 0).gen = 0) (hr : (s.slot 0).record = some r) (ho : r.owner = 1) :
    NamesOwn .client 1 0 0 r s :=
  ⟨⟨rfl, h, h'⟩, hm, ⟨by rw [hg]; rfl, hr⟩, ho⟩

theorem names_grant : NamesOwn .client 1 0 0 grant held :=
  names_slot_0 _ _ (by decide +kernel) (by decide +kernel) (by decide +kernel) (by decide +kernel) held_record rfl
theorem names_noticed : NamesOwn .client 1 0 0 noticedGrant noticed :=
  names_slot_0 _ _ (by decide +kernel) (by decide +kernel) (by decide +kernel) (by decide +kernel) noticed_record rfl
theorem names_noticedWhole : NamesOwn .client 1 0 0 wholeGrant noticedWhole :=
  names_slot_0 _ _ (by decide +kernel) (by decide +kernel) (by decide +kernel) (by decide +kernel)
    noticedWhole_record rfl
theorem names_tombstone : NamesOwn .client 1 0 0 tombstone buried :=
  names_slot_0 _ _ (by decide +kernel) (by decide +kernel) (by decide +kernel) (by decide +kernel) buried_record rfl

/-- Slot 1 of `waiting` is client 1's, and its record is QUEUED. -/
theorem names_waiter : NamesOwn .client 1 1 1 waiter waiting :=
  ⟨⟨rfl, by decide +kernel, by decide +kernel⟩, by decide +kernel, ⟨by decide +kernel, waiting_record⟩, rfl⟩

/-- Slot 0 of `waiting` is the grant in front of it. -/
theorem names_grant_of_waiting : NamesOwn .client 1 0 0 grant waiting :=
  ⟨⟨rfl, by decide +kernel, by decide +kernel⟩, by decide +kernel, ⟨by decide +kernel, by decide +kernel⟩, rfl⟩

theorem collections_held : CollectionsExact held :=
  ⟨⟨by decide +kernel, by decide +kernel⟩, ⟨by decide +kernel, by decide +kernel⟩, by decide +kernel,
    by decide +kernel, ⟨by decide +kernel, by decide +kernel⟩⟩
theorem collections_waiting : CollectionsExact waiting :=
  ⟨⟨by decide +kernel, by decide +kernel⟩, ⟨by decide +kernel, by decide +kernel⟩, by decide +kernel,
    by decide +kernel, ⟨by decide +kernel, by decide +kernel⟩⟩
theorem collections_waitingBriefly : CollectionsExact waitingBriefly :=
  ⟨⟨by decide +kernel, by decide +kernel⟩, ⟨by decide +kernel, by decide +kernel⟩, by decide +kernel,
    by decide +kernel, ⟨by decide +kernel, by decide +kernel⟩⟩
theorem collections_noticed : CollectionsExact noticed :=
  ⟨⟨by decide +kernel, by decide +kernel⟩, ⟨by decide +kernel, by decide +kernel⟩, by decide +kernel,
    by decide +kernel, ⟨by decide +kernel, by decide +kernel⟩⟩
theorem collections_noticedWhole : CollectionsExact noticedWhole :=
  ⟨⟨by decide +kernel, by decide +kernel⟩, ⟨by decide +kernel, by decide +kernel⟩, by decide +kernel,
    by decide +kernel, ⟨by decide +kernel, by decide +kernel⟩⟩
theorem collections_buried : CollectionsExact buried :=
  ⟨⟨by decide +kernel, by decide +kernel⟩, ⟨by decide +kernel, by decide +kernel⟩, by decide +kernel,
    by decide +kernel, ⟨by decide +kernel, by decide +kernel⟩⟩

theorem notices_exact (s : State) (hn : ∀ c, (s.client c).notices.Nodup)
    (hm : ∀ c i, i ∈ (s.client c).notices ↔
      (s.slot i).record.any (fun r => decide (r.owner = c) && !r.kinds.isEmpty) = true)
    (hr : ∀ i, (s.slot i).record.all (fun r =>
      decide ((r.isRetired = true → r.kinds = { retired := true }) ∧ (r.kinds.retired = true → r.isRetired = true)))
        = true) : NoticesExact s :=
  ⟨fun c => ⟨hn c, hm c⟩, records_of_all _ (fun _ h => of_decide_eq_true h) hr⟩

theorem notices_noticed : NoticesExact noticed :=
  notices_exact _ (by decide +kernel) (by decide +kernel) (by decide +kernel)
theorem notices_buried : NoticesExact buried :=
  notices_exact _ (by decide +kernel) (by decide +kernel) (by decide +kernel)
theorem notices_held : NoticesExact held :=
  notices_exact _ (by decide +kernel) (by decide +kernel) (by decide +kernel)

/-! ### Step, frames, time base, reset -/

theorem witness_FramesCarryTheirCommand :
    (Instr.request .client 1 23 2500 3 0x0F 600000 2499 60000 0xFFFF).wellFormed = true ∧
      (requestFrame 15 (.request .client 1 23 2500 3 0x0F 600000 2499 60000 0xFFFF)).isSome = true := by
  decide +kernel
theorem witness_CrcIsAsGiven : (List.replicate 127 (0 : Byte)).length = 127 ∧ 127 < 128 :=
  by decide +kernel
theorem witness_OneWrongByteIsRefused :
    (3 : Nat) < [0x25, 0x00, 0x00, 0x83].length ∧ byteAt [0x25, 0x00, 0x00, 0x83] 3 ≠ 0x82 ∧
      checkFrame .management [0x25, 0x00, 0x00, 0x83] ≠ .badFrame := by decide +kernel

/-- Places of `held` are armed, and none is due. -/
theorem witness_TickAdvancesTheCounter : (∀ q, placeDue held q = false) ∧
    (600000 : Nat) ≤ 600000 ∧ (2 ^ 31 - 1 : Nat) < 2 ^ 31 := by
  refine ⟨fun q => ?_, by decide, by decide⟩
  cases q with
  | lease i => exact (by decide +kernel : ∀ i, placeDue held (.lease i) = false) i
  | wait i => exact (by decide +kernel : ∀ i, placeDue held (.wait i) = false) i
  | notice i => exact (by decide +kernel : ∀ i, placeDue held (.notice i) = false) i
  | channel n => exact (by decide +kernel : ∀ n, placeDue held (.channel n) = false) n
  | settle => exact (by decide +kernel : placeDue held .settle = false)

/-- `noticed` at the tick at which its notice and its channel's start timer are both due, with a tick waiting. -/
def ticking : State := { noticed with tick := 200, pending := [.tick] }

theorem sound_ticking : Sound ticking where
  sums := ⟨by decide +kernel, by decide +kernel, by decide +kernel, by decide +kernel, by decide +kernel,
    by decide +kernel, by decide +kernel, by decide +kernel⟩
  collections := ⟨⟨by decide +kernel, by decide +kernel⟩, ⟨by decide +kernel, by decide +kernel⟩, by decide +kernel,
    by decide +kernel, ⟨by decide +kernel, by decide +kernel⟩⟩
  notices := notices_exact _ (by decide +kernel) (by decide +kernel) (by decide +kernel)
  budgetUnit := ⟨by decide +kernel, by decide +kernel, by decide +kernel⟩
  channels := by
    refine ⟨by decide +kernel, fun n => ?_, by decide +kernel, by decide +kernel⟩
    by_cases h : n = 0
    · subst h
      exact (by decide +kernel : (ticking.channel 0).timer.map Prod.fst = some .start)
    · have hs : (ticking.channel n).state = .disabled :=
        (by decide +kernel : ∀ m : ChannelId, m ≠ 0 → (ticking.channel m).state = .disabled) n h
      rw [hs]
      exact (by decide +kernel : ∀ m : ChannelId, m ≠ 0 → (ticking.channel m).timer.map Prod.fst = none) n h
  supervisor := ⟨by decide +kernel, by decide +kernel⟩
  settings := by
    refine ⟨by decide +kernel, by decide +kernel, by decide +kernel, by decide +kernel, by decide +kernel,
      by decide +kernel, fun n => ?_⟩
    exact ⟨(by decide +kernel : ∀ m, 1 ≤ (ticking.channel m).profile.ceiling ∧
        (ticking.channel m).profile.ceiling ≤ 2500) n,
      (by decide +kernel : ∀ m, 1 ≤ (ticking.channel m).profile.startTime ∧
        (ticking.channel m).profile.startTime ≤ 255) n,
      (by decide +kernel : ∀ m, (ticking.channel m).profile.discharge ≤ 255) n,
      (by decide +kernel : ∀ m, 10 ≤ (ticking.channel m).profile.cooldown ∧
        (ticking.channel m).profile.cooldown ≤ 10000) n,
      (by decide +kernel : ∀ m, 1 ≤ (ticking.channel m).profile.lockout ∧
        (ticking.channel m).profile.lockout ≤ 7) n,
      (by decide +kernel : ∀ m, 1 ≤ (ticking.channel m).profile.clean ∧
        (ticking.channel m).profile.clean ≤ 255) n⟩
  records := records_of_all (fun r => decide (r = noticedGrant))
    (fun r h => by
      obtain rfl := of_decide_eq_true h
      refine ⟨by decide, ?_, ?_, (by decide : (some 500 : Option Tick).isSome = true), ?_⟩
      · rintro f hf
        obtain rfl := Option.some.inj hf
        decide
      · rintro len hl
        injection hl with hl
        subst hl
        decide
      · rintro n hn
        obtain rfl := Option.some.inj hn
        decide)
    (by decide +kernel)
  shed := ⟨by decide +kernel, by decide +kernel, fun h => absurd h (by decide +kernel)⟩
  grants := ⟨by decide +kernel, by decide +kernel, by decide +kernel, by decide +kernel,
    records_of_all (fun r => decide (r.isLive = true → r.powered = decide ((ticking.channel r.channel).state = .on)))
      (fun _ h => of_decide_eq_true h) (by decide +kernel)⟩
  clients := ⟨by decide +kernel, by decide +kernel⟩
  mode := ⟨fun h => absurd h (by decide +kernel), fun h => absurd h (by decide +kernel)⟩
  ports :=
    ⟨⟨by decide +kernel, by decide +kernel, by decide +kernel, by decide +kernel, by decide +kernel, by decide +kernel,
        by decide +kernel, by decide +kernel⟩,
      ⟨by decide +kernel, by decide +kernel, by decide +kernel, by decide +kernel, by decide +kernel,
        by decide +kernel, by decide +kernel, by decide +kernel⟩⟩
  lines := ⟨by decide +kernel, by decide +kernel⟩

theorem step_ticking : ∃ t, step ticking = .next t :=
  next_of_completes (i := .tick) (s := { ticking with pending := [] }) (by decide +kernel)

theorem witness_TickLeavesNoExpiryBehind : ∃ t, Sound ticking ∧ exec .tick ticking = .next t := by
  obtain ⟨t, ht⟩ := next_of_completes (i := .tick) (s := ticking) (by decide +kernel)
  exact ⟨t, sound_ticking, ht⟩

theorem witness_ResetsAreComplete (pins : Pins) :
    (Instr.powerOn pins = .powerOn pins ∨ Instr.powerOn pins = .pinReset pins) ∧
      (Instr.pinReset pins = .powerOn pins ∨ Instr.pinReset pins = .pinReset pins) := ⟨.inl rfl, .inr rfl⟩

/-! ### What every step keeps -/

theorem witness_EveryStepKeepsThePartSound : ∃ t, Sound ticking ∧ step ticking = .next t :=
  step_ticking.imp fun _ h => ⟨sound_ticking, h⟩
theorem witness_BudgetSettingsSessionAndPortsAreKept : ∃ t, step ticking = .next t ∧ BudgetUnitOk ticking ∧
    SettingsOk ticking ∧ SupervisorOk ticking ∧ PortsOk ticking :=
  step_ticking.imp fun _ h =>
    ⟨h, sound_ticking.budgetUnit, sound_ticking.settings, sound_ticking.supervisor, sound_ticking.ports⟩
theorem witness_ChannelsAreKept : ∃ t, ChannelsOk ticking ∧ step ticking = .next t :=
  step_ticking.imp fun _ h => ⟨sound_ticking.channels, h⟩

/-- Client 1 of `ticking` has attention enabled and a notice waiting, and SHED_BEGUN is set and in the mask. -/
theorem witness_AttentionLinesAreDriven : ∃ t, step ticking = .next t ∧
    (ticking.attn = true ↔ ∃ c : ClientId, c ≠ 0 ∧ (ticking.client c).isOpen = true ∧
      (ticking.client c).attention = true ∧ (ticking.client c).notices ≠ []) ∧
    (ticking.alert = true ↔ (∃ k, ticking.flags.getLsbD k = true ∧ ticking.settings.eventMask.getLsbD k = true) ∨
      (ticking.client 0).notices ≠ []) ∧ ticking.attn = true ∧ ticking.alert = true :=
  step_ticking.imp fun _ h =>
    ⟨h, ⟨fun _ => ⟨1, by decide +kernel⟩, fun _ => by decide +kernel⟩,
      ⟨fun _ => .inl ⟨1, by decide +kernel⟩, fun _ => by decide +kernel⟩, by decide +kernel, by decide +kernel⟩
theorem witness_SumsStayExact : ∃ t, SumsExact ticking ∧ step ticking = .next t :=
  step_ticking.imp fun _ h => ⟨sound_ticking.sums, h⟩
theorem witness_CollectionsStayExact : ∃ t, CollectionsExact ticking ∧ step ticking = .next t :=
  step_ticking.imp fun _ h => ⟨sound_ticking.collections, h⟩
theorem witness_NoticeQueuesStayExact : ∃ t, NoticesExact ticking ∧ step ticking = .next t :=
  step_ticking.imp fun _ h => ⟨sound_ticking.notices, h⟩

/-! ### Refusals and check orders -/

theorem witness_RefusedCommandsChangeNothing : ∃ t,
    commandParts (.release .client 1 0x3FF) = some (.client, 1, 0x11, [0x03, 0xFF]) ∧ held.resetSafe = false ∧
      exec (.release .client 1 0x3FF) held = .next t := by
  obtain ⟨t, ht⟩ := next_of_completes (i := .release .client 1 0x3FF) (s := held) (by decide +kernel)
  exact ⟨t, by decide +kernel, by decide +kernel, ht⟩
theorem witness_RefusedCommandsChangeNothing_answer : answer (.release .client 1 0x3FF) held = some .stale := by
  decide +kernel

theorem witness_PortAndSessionTestsComeFirst_supervisor :
    commandParts (.readStatus .client 0) = some (.client, 0, 0x2B, []) ∧ held.resetSafe = false ∧
      0x20 ≤ (0x2B : Byte).toNat ∧ ¬ (PortId.client = .management ∧ (0 : ClientId) = 0) := by decide +kernel
theorem witness_PortAndSessionTestsComeFirst_client0 :
    commandParts (.release .client 0 0) = some (.client, 0, 0x11, [0, 0]) ∧ (0x11 : Byte).toNat < 0x20 := by
  decide +kernel
theorem witness_PortAndSessionTestsComeFirst_closed :
    commandParts (.release .client 15 0) = some (.client, 15, 0x11, [0, 0]) ∧
      clientMaySend .client 15 = true ∧ (held.client 15).isOpen = false ∧
      changeOf (.release .client 15 0) = none := by decide +kernel
/-- The RENEW of `inFlight` after the close. -/
def lost : State := after (.closeClient .management 0 1) (inFlight (.renew .client 1 0))
theorem witness_PortAndSessionTestsComeFirst_overtaken :
    commandParts (.renew .client 1 0) = some (.client, 1, 0x13, [0, 0]) ∧ lost.resetSafe = false ∧
      clientMaySend .client 1 = true ∧ (lost.port .client).handed = some (.renew .client 1 0) ∧
      (lost.port .client).overtaken = true ∧ lost.mode.serves = true ∧ (0 : Half).toNat ≤ 1023 ∧
      (lost.slot (handleSlot 0)).record = none ∧ (lost.client 1).isOpen = false := by decide +kernel

theorem witness_HandleChecksComeInOrder_mode :
    ClientMayAct .client 1 { ready with mode := .config } ∧ ({ ready with mode := .config } : State).mode.serves = false :=
  ⟨⟨rfl, by decide +kernel, by decide +kernel⟩, rfl⟩
theorem witness_HandleChecksComeInOrder_range :
    ClientMayAct .client 1 held ∧ held.mode.serves = true ∧ 1023 < (1024 : Half).toNat ∧
      ((0 : Half) = 0 ∨ 2500 < (0 : Half).toNat) ∧ 2500 < (2501 : Half).toNat ∧ (3 : Byte) ≠ 2 :=
  ⟨names_grant.may, names_grant.serves, by decide, by decide, by decide, by decide⟩
theorem witness_HandleChecksComeInOrder_stale :
    ClientMayAct .client 1 held ∧ (1023 : Half).toNat ≤ 1023 ∧ (held.slot (handleSlot 1023)).record = none ∧
      (held.slot (handleSlot 64)).gen.toNat ≠ (64 : Half).toNat / 64 ∧
      (1 ≤ (1 : Half).toNat ∧ (2500 : Half).toNat ≤ 2500) :=
  ⟨names_grant.may, by decide, by decide +kernel, by decide +kernel, by decide⟩
theorem witness_HandleChecksComeInOrder_notOwner :
    Names 0 0 grant held ∧ ClientMayAct .management 0 held ∧ grant.owner ≠ 0 :=
  ⟨names_grant.names, ⟨rfl, by decide +kernel, by decide +kernel⟩, by decide⟩

theorem witness_SupervisorChecksComeInOrder_keys :
    SupervisorMayAct .management 0 held ∧ keyOf 0x17 = none ∧ keyOf 0x01 = some .tierBudget ∧ held.mode ≠ .safe ∧
      ¬ (indexOk .tierBudget 4 = true ∧ valueOk .tierBudget 20000 = true) ∧
      ¬ (indexOk .eventMask 0 = true ∧ valueOk .eventMask 0x80 = true) ∧ (after .safeNFall held).mode = .safe ∧
      SupervisorMayAct .management 0 (after .safeNFall held) :=
  ⟨⟨rfl, rfl, by decide +kernel⟩, by decide +kernel, by decide +kernel, by decide +kernel, by decide, by decide,
    by decide +kernel, ⟨rfl, rfl, by decide +kernel⟩⟩
theorem witness_SupervisorChecksComeInOrder_channel :
    keyOf 0x16 = some (.channel .clean) ∧ held.mode ≠ .safe ∧ (0 : Byte).toNat = (0 : ChannelId).val ∧
      channelValueOk .clean (255 : Half).toNat = true ∧ (held.channel 0).state.drives = true := by decide +kernel
theorem witness_SupervisorChecksComeInOrder_records :
    (held.mode.serves = true ∧ 1023 < (1024 : Half).toNat ∧ (1023 : Half).toNat ≤ 1023 ∧
      (held.slot (handleSlot 1023)).record = none) ∧
    ((0 : Byte) = 0 ∨ 15 < (0 : Byte).toNat) ∧ 15 < (16 : Byte).toNat ∧
    ((15 : ClientId) ≠ 0 ∧ (15 : Byte).toNat = (15 : ClientId).val ∧ (held.client 15).isOpen = false) ∧
    23 < (24 : Byte).toNat := by decide +kernel

/-! ### REQUEST -/

/-- What the operands of `ask` ask for. -/
def asked : Ask :=
  { channel := 0, amount := 300, cls := 2, kind := .leased 500, floor := some 100, wait := false, timeout := none,
    tag := 7 }

theorem witness_RequestIsAdmittedAtOnce :
    ClientMayAct .client 1 ready ∧ askOf 0 300 2 0x05 500 100 0 7 = some asked ∧ RequestPasses 1 asked ready ∧
      LowestFree 0 ready ∧ FitsNow asked ready :=
  ⟨⟨rfl, by decide +kernel, by decide +kernel⟩, by decide +kernel,
    ⟨by decide +kernel, by decide +kernel, by decide +kernel, by decide +kernel, by decide +kernel⟩,
    ⟨by decide +kernel, by decide +kernel⟩,
    ⟨by decide +kernel, by decide +kernel, by decide +kernel, by decide +kernel, by decide +kernel,
      by decide +kernel⟩⟩

/-- What the operands of `askBriefly` ask for: one dW more than the headroom would be 701; this is 800. -/
def askedBriefly : Ask :=
  { channel := 0, amount := 800, cls := 2, kind := .standing, floor := none, wait := true, timeout := some 10,
    tag := 8 }

theorem witness_RequestIsQueued :
    ClientMayAct .client 1 held ∧ held.mode.serves = true ∧
      askOf 0 800 2 0x0A 0 0 10 8 = some askedBriefly ∧ RequestPasses 1 askedBriefly held ∧ LowestFree 1 held ∧
      ¬ FitsNow askedBriefly held ∧ askedBriefly.wait = true ∧ held.waitQueue.length < 16 :=
  ⟨names_grant.may, names_grant.serves, by decide +kernel,
    ⟨by decide +kernel, by decide +kernel, by decide +kernel, by decide +kernel, by decide +kernel⟩,
    ⟨by decide +kernel, by decide +kernel⟩,
    fun h => absurd h.room (by decide +kernel), by decide +kernel, by decide +kernel⟩

/-- The check order of a request of client `c` in `s`, for the witnesses below. -/
def orderOf (c : ClientId) (a : Ask) (s : State) : List (Bool × Result) :=
  let x := s.channel a.channel
  let o := s.client c
  [(clientMaySend .client c, .denied), (o.isOpen, .closed), (s.mode.serves, .mode),
    (decide (o.best ≤ a.cls.val), .rights), (channelAvailable a.wait x.state, .chUnavail),
    (decide (a.amount ≤ x.profile.ceiling), .range), (decide (o.held + a.amount ≤ o.quota), .quota),
    (decide (o.occupied < o.limit), .limit), (decide (∃ j, (s.slot j).record = none), .tableFull)]

theorem witness_RequestIsTurnedAway_checks :
    firstFailure (orderOf 0 asked held) = some .denied ∧ firstFailure (orderOf 2 asked held) = some .closed ∧
      firstFailure (orderOf 1 asked { ready with mode := .config }) = some .mode ∧
      firstFailure (orderOf 1 { asked with cls := 0 } held) = some .rights ∧
      firstFailure (orderOf 1 { asked with channel := 23 } held) = some .chUnavail ∧
      firstFailure (orderOf 1 { asked with amount := 1001 } held) = some .range ∧
      firstFailure (orderOf 1 { asked with amount := 401 } (waiting.setClient 1
        { waiting.client 1 with quota := 1500 })) = some .quota ∧
      firstFailure (orderOf 1 asked (held.setClient 1 { held.client 1 with limit := 1 })) = some .limit := by
  decide +kernel

/-- The grant table of a part whose 64 slots are occupied. -/
theorem witness_RequestIsTurnedAway_tableFull :
    firstFailure (orderOf 1 { asked with amount := 100 }
      { held with slots := Vector.replicate 64 (held.slot 0) }) = some .tableFull := by decide +kernel
theorem witness_RequestIsTurnedAway_operands : askOf 24 300 2 0 0 0 0 7 = none ∧ askOf 0 2501 2 0 0 0 0 7 = none ∧
    askOf 0 0 2 0 0 0 0 7 = none ∧ askOf 0 300 4 0 0 0 0 7 = none ∧ askOf 0 300 2 0x10 0 0 0 7 = none ∧
    askOf 0 300 2 1 99 0 0 7 = none ∧ askOf 0 300 2 4 0 300 0 7 = none ∧ askOf 0 300 2 8 0 0 9 7 = none := by
  decide +kernel
theorem witness_RequestIsTurnedAway_noRoom :
    firstFailure (orderOf 1 { askedBriefly with wait := false } held) = none ∧
      ¬ FitsNow { askedBriefly with wait := false } held :=
  ⟨by decide +kernel, fun h => absurd h.room (by decide +kernel)⟩
theorem witness_RequestIsTurnedAway_qFull :
    firstFailure (orderOf 1 askedBriefly { held with waitQueue := List.replicate 16 0 }) = none ∧
      ¬ FitsNow askedBriefly { held with waitQueue := List.replicate 16 0 } ∧
      16 ≤ ({ held with waitQueue := List.replicate 16 0 } : State).waitQueue.length :=
  ⟨by decide +kernel, fun h => absurd h.room (by decide +kernel), by decide +kernel⟩

/-! ### RELEASE, RESIZE, RENEW and ANSWER -/

theorem witness_ReleaseFreesTheRecord :
    NamesOwn .client 1 0 0 grant held ∧ CollectionsExact held ∧ grant.isRetired = false :=
  ⟨names_grant, collections_held, rfl⟩
theorem witness_ReleaseFreesTheRecord_tombstone :
    NamesOwn .client 1 0 0 tombstone buried ∧ CollectionsExact buried ∧ tombstone.isRetired = true :=
  ⟨names_tombstone, collections_buried, rfl⟩
theorem witness_ReleasesAreHandedOn_head :
    NamesOwn .client 1 0 0 grant waiting ∧ grant.isActive = true ∧ waiting.mode = .run ∧ waiting.shed = .idle ∧
      waiting.waitQueue = 1 :: [] ∧ (waiting.slot 1).record = some waiter ∧ waiter.isQueued = true ∧
      (waiting.channel waiter.channel).state ≠ .faulted ∧
      (waiting.channel waiter.channel).sum - (if waiter.channel = grant.channel then grant.amount else 0)
        + waiter.amount ≤ (waiting.channel waiter.channel).profile.ceiling ∧
      (waiting.committed - grant.amount) + waiter.amount
        + (if waiter.cls = 0 then 0 else waiting.settings.reserve0) ≤ waiting.budget :=
  ⟨names_grant_of_waiting, rfl, by decide +kernel, by decide +kernel, by decide +kernel, waiting_record, rfl,
    by decide +kernel, by decide +kernel, by decide +kernel⟩
theorem witness_ReleasesAreHandedOn_last :
    NamesOwn .client 1 0 0 grant held ∧ grant.isLive = true ∧ (held.channel grant.channel).state.drives = true ∧
      (held.channel grant.channel).live = 1 ∧ (held.channel grant.channel).profile.discharge ≠ 0 :=
  ⟨names_grant, rfl, by decide +kernel, by decide +kernel, by decide +kernel⟩
/-- `held` with a discharge time of 0, and with the grant released once more to a STOPPING channel. -/
def abrupt : State :=
  held.setChannel 0 { held.channel 0 with profile := { (held.channel 0).profile with discharge := 0 } }
theorem witness_ReleasesAreHandedOn_stops :
    NamesOwn .client 1 0 0 grant abrupt ∧ (abrupt.channel 0).state.drives = true ∧
      (abrupt.channel 0).profile.discharge = 0 ∧ (abrupt.channel 0).live = 1 ∧
      (∀ j q, (abrupt.slot j).record = some q → q.isQueued = true → q.channel ≠ 0) ∧
      ((after ask (after (.release .client 1 0) held)).channel 0).state = .stopping ∧
      ((after ask (after (.release .client 1 0) held)).channel 0).live = 1 :=
  ⟨names_slot_0 _ _ (by decide +kernel) (by decide +kernel) (by decide +kernel) (by decide +kernel)
      (by decide +kernel) rfl, by decide +kernel, by decide +kernel, by decide +kernel,
    records_of_all (fun r => decide (r.isQueued = true → r.channel ≠ 0)) (fun _ h => of_decide_eq_true h)
      (by decide +kernel), by decide +kernel, by decide +kernel⟩
theorem witness_ResizeDownLowersTheAmount :
    NamesOwn .client 1 0 0 grant held ∧ 1 ≤ (1 : Half).toNat ∧ (1 : Half).toNat ≤ 2500 ∧ grant.isActive = true ∧
      (1 : Half).toNat < grant.amount ∧ (300 : Half).toNat = grant.amount :=
  ⟨names_grant, by decide, by decide, rfl, by decide, by decide⟩
theorem witness_ResizeDownLowersTheAmount_badState :
    NamesOwn .client 1 1 1 waiter waiting ∧ (2500 : Half).toNat ≤ 2500 ∧ waiter.isActive = false :=
  ⟨names_waiter, by decide, rfl⟩
theorem witness_ResizeUpRaisesTheAmount :
    NamesOwn .client 1 0 0 grant held ∧ grant.isActive = true ∧ grant.amount < (1000 : Half).toNat ∧
      (1000 : Half).toNat ≤ 2500 ∧ firstFailure (growthTests grant (1000 : Half).toNat held) = none :=
  ⟨names_grant, rfl, by decide, by decide, by decide +kernel⟩
theorem witness_ResizeUpRaisesTheAmount_checks :
    firstFailure (growthTests grant 1001 held) = some .range ∧
      firstFailure (growthTests grant 701 (held.setClient 1 { held.client 1 with quota := 700 })) = some .quota ∧
      firstFailure (growthTests grant 301 { held with mode := .hold }) = some .noRoom ∧ 1001 ≤ 2500 := by
  decide +kernel
theorem witness_RenewMovesTheLease :
    NamesOwn .client 1 0 0 grant held ∧ grant.phase = .live false (some 500) none ∧ grant.kind = .leased 500 :=
  ⟨names_grant, rfl, rfl⟩
theorem witness_RenewMovesTheLease_badState :
    NamesOwn .client 1 1 1 waiter waiting ∧ (waiter.isLive = false ∨ waiter.kind = .standing) :=
  ⟨names_waiter, .inl rfl⟩
theorem witness_AckReducesTheGrant :
    NamesOwn .client 1 0 0 noticedGrant noticed ∧ noticedGrant.phase = .live false (some 500) (some notice) ∧
      0 < notice.required := ⟨names_noticed, rfl, by decide⟩
theorem witness_AckReducesTheGrant_fits :
    SumsExact noticed ∧ notice.required < noticedGrant.amount ∧ projected noticed ≤ noticed.budget :=
  ⟨⟨by decide +kernel, by decide +kernel, by decide +kernel, by decide +kernel, by decide +kernel, by decide +kernel,
    by decide +kernel, by decide +kernel⟩, by decide, by decide +kernel⟩
theorem witness_AnswersThatFree_ack :
    NamesOwn .client 1 0 0 wholeGrant noticedWhole ∧ wholeGrant.notice? = some { notice with required := 0 } ∧
      CollectionsExact noticedWhole := ⟨names_noticedWhole, rfl, collections_noticedWhole⟩

/-- `noticed` with a busy limit of 0. -/
def unforgiving : State := { noticed with settings := { noticed.settings with busyLimit := 0 } }
theorem witness_AnswersThatFree_busy :
    NamesOwn .client 1 0 0 noticedGrant unforgiving ∧ noticedGrant.notice? = some notice ∧
      CollectionsExact unforgiving ∧ unforgiving.settings.busyLimit ≤ notice.busy :=
  ⟨names_slot_0 _ _ (by decide +kernel) (by decide +kernel) (by decide +kernel) (by decide +kernel)
      (by decide +kernel) rfl, rfl,
    ⟨⟨by decide +kernel, by decide +kernel⟩, ⟨by decide +kernel, by decide +kernel⟩, by decide +kernel,
      by decide +kernel, ⟨by decide +kernel, by decide +kernel⟩⟩, by decide +kernel⟩
theorem witness_BusyExtendsTheNotice :
    NamesOwn .client 1 0 0 noticedGrant noticed ∧ noticedGrant.phase = .live false (some 500) (some notice) ∧
      notice.busy < noticed.settings.busyLimit := ⟨names_noticed, rfl, by decide +kernel⟩
theorem witness_LateAnswersAreRefused :
    NamesOwn .client 1 0 0 { noticedGrant with phase := .retired .revokedTimeout, kinds := { retired := true } }
      revoked ∧ NamesOwn .client 1 0 0 grant held ∧ grant.notice? = none ∧ grant.phase ≠ .retired .revokedTimeout :=
  ⟨names_slot_0 _ _ (by decide +kernel) (by decide +kernel) (by decide +kernel) (by decide +kernel)
      (by decide +kernel) rfl, names_grant, rfl, by decide⟩

/-! ### Views -/

theorem witness_QueryReturnsTheGrantView :
    ClientMayAct .client 1 held ∧ held.mode ≠ .safe ∧ Names 0 0 grant held ∧ grant.owner = 1 :=
  ⟨names_grant.may, by decide +kernel, names_grant.names, rfl⟩
theorem witness_QueryReturnsTheGrantView_checks :
    1023 < (1024 : Half).toNat ∧ (1023 : Half).toNat ≤ 1023 ∧ (held.slot (handleSlot 1023)).record = none ∧
      (held.slot (handleSlot 64)).gen.toNat ≠ (64 : Half).toNat / 64 := by decide +kernel
theorem witness_QueryReturnsTheGrantView_another :
    ClientMayAct .client 2 (held.setClient 2 opened) ∧ Names 0 0 grant (held.setClient 2 opened) ∧
      grant.owner ≠ 2 :=
  ⟨⟨rfl, by decide +kernel, by decide +kernel⟩, ⟨by decide +kernel, by decide +kernel⟩, by decide⟩
theorem witness_ListReturnsTheMatches :
    ClientMayAct .client 1 waiting ∧ waiting.mode ≠ .safe ∧
      (decide ((3 : Byte).toNat ≤ 3) && decide ((1 : Byte).toNat ≤ 15) && decide ((23 : Byte).toNat ≤ 23)
        && decide ((63 : Byte).toNat ≤ 63)) = true ∧ ¬ (4 : Byte).toNat ≤ 3 ∧ ¬ (16 : Byte).toNat ≤ 15 ∧
      ¬ (24 : Byte).toNat ≤ 23 ∧ ¬ (64 : Byte).toNat ≤ 63 ∧ (2 : Byte).toNat ≠ (1 : ClientId).val :=
  ⟨names_waiter.may, by decide +kernel, by decide, by decide, by decide, by decide, by decide, by decide⟩
theorem witness_NextNoticeDeliversTheHead_empty :
    ClientMayAct .client 1 held ∧ held.mode ≠ .safe ∧ NoticesExact held ∧ (held.client 1).notices = [] :=
  ⟨names_grant.may, by decide +kernel, notices_held, by decide +kernel⟩
theorem witness_NextNoticeDeliversTheHead_live :
    ClientMayAct .client 1 noticed ∧ noticed.mode ≠ .safe ∧ NoticesExact noticed ∧
      (noticed.client 1).notices = 0 :: [] ∧ (noticed.slot 0).record = some noticedGrant ∧
      noticedGrant.isRetired = false :=
  ⟨names_noticed.may, by decide +kernel, notices_noticed, by decide +kernel, noticed_record, rfl⟩
theorem witness_NextNoticeDeliversTheHead_tombstone :
    ClientMayAct .client 1 buried ∧ buried.mode ≠ .safe ∧ NoticesExact buried ∧
      (buried.client 1).notices = 0 :: [] ∧ (buried.slot 0).record = some tombstone ∧ tombstone.isRetired = true :=
  ⟨names_tombstone.may, by decide +kernel, notices_buried, by decide +kernel, buried_record, rfl⟩
theorem witness_StatusViewsAreReturned :
    ClientMayAct .client 1 held ∧ held.mode ≠ .safe ∧ SupervisorMayAct .management 0 held ∧
      ClientMayAct .management 0 held ∧ (15 : Byte).toNat = (15 : ClientId).val ∧ 15 < (16 : Byte).toNat ∧
      (23 : Byte).toNat = (23 : ChannelId).val ∧ 23 < (24 : Byte).toNat :=
  ⟨names_grant.may, by decide +kernel, ⟨rfl, rfl, by decide +kernel⟩, ⟨rfl, by decide +kernel, by decide +kernel⟩,
    by decide, by decide, by decide, by decide⟩
theorem witness_ReadSettingReturnsTheValue :
    SupervisorMayAct .management 0 held ∧ (3 : Byte).toNat = (3 : Tier).val ∧ 3 < (4 : Byte).toNat ∧
      (1 : Byte) ≠ 0 ∧ (23 : Byte).toNat = (23 : ChannelId).val ∧ 23 < (24 : Byte).toNat ∧
      (0x08 ≤ (0x08 : Byte).toNat ∧ (0x0F : Byte).toNat ≤ 0x0F) ∧ 0x17 ≤ (0x17 : Byte).toNat :=
  ⟨⟨rfl, rfl, by decide +kernel⟩, by decide, by decide, by decide, by decide, by decide, by decide, by decide⟩

/-! ### Sessions, retirement and settings -/

/-- The check order of OPEN_CLIENT, for the witnesses below. -/
def openOrder (p : PortId) (c : ClientId) (client : Byte) (quota : Half) (limit best attention : Byte) (s : State) :
    List (Bool × Result) :=
  [(decide (p = .management ∧ c = 0), .denied), (decide (s.mode ≠ .safe), .mode),
    (decide (1 ≤ client.toNat ∧ client.toNat ≤ 15 ∧ quota.toNat ≤ 20000 ∧ 1 ≤ limit.toNat ∧
      limit.toNat ≤ 16 ∧ best.toNat ≤ 3 ∧ attention.toNat ≤ 1), .range),
    (!(s.client (Fin.ofNat 16 client.toNat)).isOpen, .badState)]

theorem witness_OpenClientOpensTheSession :
    ready.resetSafe = false ∧ firstFailure (openOrder .management 0 15 20000 16 3 1 ready) = none ∧
      firstFailure (openOrder .client 0 15 20000 16 3 1 ready) = some .denied ∧
      firstFailure (openOrder .management 0 15 20000 16 3 1 (after .safeNFall ready)) = some .mode ∧
      firstFailure (openOrder .management 0 16 20000 16 3 1 ready) = some .range ∧
      firstFailure (openOrder .management 0 15 20001 16 3 1 ready) = some .range ∧
      firstFailure (openOrder .management 0 15 20000 17 3 1 ready) = some .range ∧
      firstFailure (openOrder .management 0 15 20000 16 4 1 ready) = some .range ∧
      firstFailure (openOrder .management 0 15 20000 16 3 2 ready) = some .range ∧
      firstFailure (openOrder .management 0 1 20000 16 3 1 ready) = some .badState := by decide +kernel
theorem witness_CloseClientFreesEveryRecord :
    SupervisorMayAct .management 0 waiting ∧ waiting.mode ≠ .safe ∧ (1 : Byte).toNat = (1 : ClientId).val ∧
      (1 : ClientId) ≠ 0 ∧ (waiting.client 1).isOpen = true ∧ CollectionsExact waiting ∧
      (waiting.channel 0).live = (List.finRange 64).countP fun j => (waiting.slot j).record.any fun r =>
        decide (r.owner = 1) && decide (r.channel = 0) && r.isLive :=
  ⟨⟨rfl, rfl, by decide +kernel⟩, by decide +kernel, by decide, by decide, by decide +kernel, collections_waiting,
    by decide +kernel⟩
theorem witness_CloseClientFreesEveryRecord_inFlight :
    let s := inFlight (.resize .client 1 0 2500)
    SupervisorMayAct .management 0 s ∧ s.mode.serves = true ∧ CollectionsExact s ∧ (s.client 1).isOpen = true ∧
      (s.port .client).handed = some (.resize .client 1 0 2500) ∧ 1 ≤ (2500 : Half).toNat ∧ Names 0 0 grant s ∧
      grant.owner = 1 ∧
      commandParts (.release .client 1 0) = some (.client, 1, 0x11, [0, 0]) ∧
      ((after (.closeClient .management 0 1) s).port .client).handed ≠ some (.release .client 1 0) :=
  ⟨⟨rfl, rfl, by decide +kernel⟩, by decide +kernel,
    ⟨⟨by decide +kernel, by decide +kernel⟩, ⟨by decide +kernel, by decide +kernel⟩, by decide +kernel,
      by decide +kernel, ⟨by decide +kernel, by decide +kernel⟩⟩,
    by decide +kernel, rfl, by decide, ⟨by decide +kernel, by decide +kernel⟩, rfl, by decide +kernel,
    by decide +kernel⟩
theorem witness_RecordsRetireWithTheirReasons_force :
    (held.slot 0).record = some grant ∧ CollectionsExact held ∧ held.resetSafe = false ∧
      SupervisorMayAct .management 0 held ∧ held.mode.serves = true ∧
      (0 : Half).toNat = handleOf 0 (held.slot 0).gen ∧ grant.isRetired = false ∧
      (buried.slot 0).record = some tombstone ∧ CollectionsExact buried ∧ tombstone.isRetired = true :=
  ⟨held_record, collections_held, by decide +kernel, ⟨rfl, rfl, by decide +kernel⟩, by decide +kernel,
    by decide +kernel, rfl, buried_record, collections_buried, rfl⟩

/-- `held`, `waitingBriefly` and `noticed` at the tick at which their deadlines fall due. -/
def heldDue : State := { held with tick := 500 }
def waitingDue : State := { waitingBriefly with tick := 10 }
def noticedDue : State := { noticed with tick := 200 }
theorem collections_heldDue : CollectionsExact heldDue :=
  ⟨⟨by decide +kernel, by decide +kernel⟩, ⟨by decide +kernel, by decide +kernel⟩, by decide +kernel,
    by decide +kernel, ⟨by decide +kernel, by decide +kernel⟩⟩
theorem collections_waitingDue : CollectionsExact waitingDue :=
  ⟨⟨by decide +kernel, by decide +kernel⟩, ⟨by decide +kernel, by decide +kernel⟩, by decide +kernel,
    by decide +kernel, ⟨by decide +kernel, by decide +kernel⟩⟩
theorem collections_noticedDue : CollectionsExact noticedDue :=
  ⟨⟨by decide +kernel, by decide +kernel⟩, ⟨by decide +kernel, by decide +kernel⟩, by decide +kernel,
    by decide +kernel, ⟨by decide +kernel, by decide +kernel⟩⟩
theorem witness_RecordsRetireWithTheirReasons_lease :
    (heldDue.slot 0).record = some grant ∧ CollectionsExact heldDue ∧ heldDue.resetSafe = false ∧
      grant.phase = .live false (some 500) none ∧ dueAt heldDue.tick 500 = true :=
  ⟨by decide +kernel, collections_heldDue, by decide +kernel, rfl, by decide +kernel⟩
theorem witness_RecordsRetireWithTheirReasons_wait :
    (waitingDue.slot 1).record = some { waiter with phase := .queued (some 10) } ∧ CollectionsExact waitingDue ∧
      waitingDue.resetSafe = false ∧ dueAt waitingDue.tick 10 = true :=
  ⟨by decide +kernel, collections_waitingDue, by decide +kernel, by decide +kernel⟩
theorem witness_RecordsRetireWithTheirReasons_notice :
    (noticedDue.slot 0).record = some noticedGrant ∧ CollectionsExact noticedDue ∧ noticedDue.resetSafe = false ∧
      noticedGrant.notice? = some notice ∧ dueAt noticedDue.tick notice.deadline = true :=
  ⟨by decide +kernel, collections_noticedDue, by decide +kernel, rfl, by decide +kernel⟩
theorem witness_BudgetWritesAreHandedOn :
    SupervisorMayAct .management 0 held ∧ held.mode ≠ .safe ∧ BudgetUnitOk held ∧ (20000 : Half).toNat ≤ 20000 ∧
      (3 : Byte).toNat = (3 : Tier).val :=
  ⟨⟨rfl, rfl, by decide +kernel⟩, by decide +kernel, ⟨by decide +kernel, by decide +kernel, by decide +kernel⟩,
    by decide, by decide⟩
theorem witness_ReserveWriteOnlyWalks :
    SupervisorMayAct .management 0 held ∧ held.mode ≠ .safe ∧ (20000 : Half).toNat ≤ 20000 ∧
      held.settings.reserve0 ≤ (20000 : Half).toNat :=
  ⟨⟨rfl, rfl, by decide +kernel⟩, by decide +kernel, by decide, by decide +kernel⟩
theorem witness_PlainWritesStoreTheirValue :
    SupervisorMayAct .management 0 ready ∧ (0x7F : Half).toNat ≤ 0x7F ∧ ready.mode ≠ .safe ∧
      (1 ≤ (255 : Half).toNat ∧ (255 : Half).toNat ≤ 255) ∧ (5 ≤ (5000 : Half).toNat ∧ (5000 : Half).toNat ≤ 5000) ∧
      (3 : Half).toNat ≤ 3 ∧ (10 ≤ (10000 : Half).toNat ∧ (10000 : Half).toNat ≤ 10000) ∧
      (1 ≤ (7 : Half).toNat ∧ (7 : Half).toNat ≤ 7) ∧ (1 ≤ (2500 : Half).toNat ∧ (2500 : Half).toNat ≤ 2500) :=
  ⟨⟨rfl, rfl, by decide +kernel⟩, by decide, by decide +kernel, by decide, by decide, by decide, by decide,
    by decide, by decide⟩

/-- Channel 23 of `ready` is DISABLED, channel 0 OFF, and channel 0 of `locked` LOCKED, all of them empty. -/
theorem witness_PlainWritesStoreTheirValue_channels :
    (23 : Byte).toNat = (23 : ChannelId).val ∧ (ready.channel 23).state = .disabled ∧
      (ready.channel 0).state = .off ∧ (locked.channel 0).state = .locked ∧
      (∀ j, (ready.slot j).record = none) ∧ ∀ j, (locked.slot j).record = none := by decide +kernel
theorem witness_ChEnableWriteActsOnTheChannel :
    SupervisorMayAct .management 0 locked ∧ locked.mode ≠ .safe ∧ (0 : Byte).toNat = (0 : ChannelId).val ∧
      (1 : Half).toNat ≤ 1 ∧ (locked.channel 0).state = .locked ∧
      ∀ j r, (locked.slot j).record = some r → r.channel ≠ 0 :=
  ⟨⟨rfl, rfl, by decide +kernel⟩, by decide +kernel, by decide, by decide, by decide +kernel,
    records_of_all (fun _ => false) (fun _ h => absurd h (by decide)) (by decide +kernel)⟩

/-! ### Controller states -/

theorem witness_StartHoldAndResume :
    SupervisorMayAct .management 0 configured ∧ configured.mode = .config ∧
      (configured.channel 0).profile.enable = true ∧
      (∀ n, (State.reset.channel n).profile.enable = false) ∧ State.reset.mode = .config ∧
      ready.mode = .run ∧ (after (.hold .management 0) waiting).mode = .hold ∧
      (after (.hold .management 0) noticed).shed ≠ .idle ∧ (after .safeNFall held).mode = .safe :=
  ⟨⟨rfl, rfl, by decide +kernel⟩, by decide +kernel, by decide +kernel, by decide +kernel, by decide +kernel,
    by decide +kernel, by decide +kernel, by decide +kernel, by decide +kernel⟩
/-- `waiting` in HOLD with the grant in front of the waiter released: the head fits. -/
def paused : State := after (.release .client 1 0) { waiting with mode := .hold }
theorem witness_StartHoldAndResume_head :
    SupervisorMayAct .management 0 paused ∧ paused.mode = .hold ∧ paused.shed = .idle ∧ paused.waitQueue = 1 :: [] ∧
      (paused.slot 1).record = some waiter ∧ waiter.isQueued = true ∧ (paused.channel 0).state ≠ .faulted ∧
      (paused.channel 0).sum + waiter.amount ≤ (paused.channel 0).profile.ceiling ∧
      paused.committed + waiter.amount + (if waiter.cls = 0 then 0 else paused.settings.reserve0) ≤ paused.budget :=
  ⟨⟨rfl, rfl, by decide +kernel⟩, by decide +kernel, by decide +kernel, by decide +kernel, by decide +kernel, rfl,
    by decide +kernel, by decide +kernel, by decide +kernel⟩

/-- After a reset that found SAFE_N low, with a line change taken before any claim: its settle timer falls due. -/
def unsafeReset : State :=
  { after (.lineChange 1)
      (after (.pinReset { tier := 0, safeN := false, addr := false, pg := 0, fltN := 0xFFFFFF }) State.reset) with
    tick := 20 }
theorem witness_SafeEntryClearsThePart_first :
    unsafeReset.resetSafe = true ∧ unsafeReset.settleTimer = some 20 ∧ dueAt unsafeReset.tick 20 = true ∧
      commandParts (.readStatus .management 0) = some (.management, 0, 0x2B, []) ∧
      (unsafeReset.channel 0).state.drives = false := by decide +kernel
theorem witness_SafeEntryClearsThePart :
    SupervisorMayAct .management 0 held ∧ held.resetSafe = false ∧ held.mode ≠ .safe ∧
      (after .safeNFall held).mode = .safe ∧ SupervisorMayAct .management 0 (after .safeNFall held) ∧
      (after (.pinReset { tier := 3, safeN := false, addr := true, pg := 0, fltN := 0xFFFFFF }) held).resetSafe
        = true :=
  ⟨⟨rfl, rfl, by decide +kernel⟩, by decide +kernel, by decide +kernel, by decide +kernel,
    ⟨rfl, rfl, by decide +kernel⟩, by decide +kernel⟩
theorem witness_RestartReturnsToConfig :
    SupervisorMayAct .management 0 held ∧ held.mode ≠ .safe ∧
      SupervisorMayAct .management 0 (after .safeNFall held) ∧ (after .safeNFall held).mode = .safe ∧
      (after .safeNFall held).safeHeld = false ∧ (after .safeNRise (after .safeNFall held)).safeHeld = true :=
  ⟨⟨rfl, rfl, by decide +kernel⟩, by decide +kernel, ⟨rfl, rfl, by decide +kernel⟩, by decide +kernel,
    by decide +kernel, by decide +kernel⟩
theorem witness_UnlockAndClearEvents :
    SupervisorMayAct .management 0 locked ∧ locked.mode ≠ .safe ∧ (0 : Byte).toNat = (0 : ChannelId).val ∧
      (locked.channel 0).state = .locked ∧ (ready.channel 0).state ≠ .locked ∧
      (0x80 : Byte).getLsbD 7 = true ∧ (0x7F : Byte).getLsbD 7 = false :=
  ⟨⟨rfl, rfl, by decide +kernel⟩, by decide +kernel, by decide, by decide +kernel, by decide +kernel, by decide,
    by decide⟩

/-! ### Port units -/

/-- The bytes of the START frame of R165, and `configured` with that frame accepted, executed, and answered. -/
def startBytes : List Byte := [0x25, 0x00, 0x00, 0x83]
def running : State := after (.writeTransaction (.i2c 0x38) startBytes) configured
def executed : State := after (.start .management 0) running
def answered : State := after (.responsePlaced .management) executed

theorem witness_WriteTransactionIsTaken :
    portOf (.i2c 0x38) configured = some .management ∧ startBytes ≠ [] ∧ configured.managementPort.state ≠ .executing ∧
      checkFrame .management startBytes = .handsOn (.start .management 0) ∧
      checkFrame .management (startBytes.set 3 0x82) = .badFrame ∧
      checkFrame .management (frameOf 0x1F 0x00 []) = .unknown ∧
      checkFrame .client (frameOf 0x14 0x10 [0x00, 0x00, 0x03]) =
        .handsOn (.answerBusy .client 1 { handle := 0, answer := 3 }) ∧
      running.managementPort.state = .executing ∧ running.managementPort.rejected ≤ 255 ∧
      portOf (.i2c 0x39) configured = none := by decide +kernel
theorem witness_ReadTransactionReturnsByState :
    portOf .spi ready = some .client ∧ ready.clientPort.state = .idle ∧
      portOf (.i2c 0x38) running = some .management ∧ running.managementPort.state = .executing ∧
      answered.managementPort.state = .ready ∧ portOf (.i2c 0x39) answered = none := by decide +kernel
theorem witness_ResponsesAndDirectionBytes :
    executed.managementPort.state = .executing ∧ executed.managementPort.handed = none ∧
      executed.managementPort.reply = some { result := .ok } ∧ (0x00 : Byte) ≠ 0x01 ∧ (0x03 : Byte) ≠ 0x02 ∧
      ready.clientPort.rejected ≤ 255 := by decide +kernel

/-! ### Channels, tiers and lines -/

theorem witness_FaultsEndTheGrants_trip : held.resetSafe = false ∧ (held.channel 0).state.drives = true := by
  decide +kernel
theorem witness_FaultsEndTheGrants_powerLoss : powered.resetSafe = false ∧ (powered.channel 0).state = .on := by
  decide +kernel
theorem witness_FaultsEndTheGrants_startTimeout :
    (({ held with tick := 20 } : State).channel 0).state = .starting ∧
      (({ held with tick := 20 } : State).channel 0).timer = some (.start, 20) ∧ dueAt 20 20 = true := by
  decide +kernel

/-- `ready` with FLT0_N low, and its channel started by `ask`: the sample finds the trip. -/
def tripped : State := after ask (ready.setChannel 0 { ready.channel 0 with fltN := false })
theorem witness_FaultsEndTheGrants_sampled :
    (tripped.channel 0).state.drives = true ∧ (tripped.channel 0).sampled = some .trip := by decide +kernel
theorem witness_FaultsEndTheGrants_locked :
    (brittle.channel 0).profile.lockout ≤ min 7 ((brittle.channel 0).faultCount + 1) ∧
      (held.channel 0).profile.lockout > min 7 ((held.channel 0).faultCount + 1) := by decide +kernel

/-- The same with PG0 high: the sample finds power good. -/
def goodAtOnce : State := after ask (ready.setChannel 0 { ready.channel 0 with pg := true })
theorem witness_PowerGoodPowersTheGrants :
    held.resetSafe = false ∧ (held.channel 0).state = .starting ∧ (held.slot 0).record = some grant ∧
      grant.phase = .live false (some 500) none ∧ (goodAtOnce.channel 0).state = .starting ∧
      (goodAtOnce.channel 0).sampled = some .powerGood := by decide +kernel

/-- `held` with its grant released: channel 0 is STOPPING. -/
def stopping : State := after (.release .client 1 0) held
theorem witness_ChannelTimersExpire :
    ((stopping.channel 0).timer = some (.discharge, 10) ∧ (stopping.channel 0).state = .stopping ∧
      dueAt 10 10 = true ∧ (stopping.channel 0).live = 0) ∧
    (((after ask stopping).channel 0).timer = some (.discharge, 10) ∧ ((after ask stopping).channel 0).live ≠ 0) ∧
    ((after (.trip 0) held).channel 0).timer = some (.cooldown, 1000) ∧
    ((after (.trip 0) held).channel 0).state = .faulted ∧ dueAt 1000 1000 = true ∧
    (powered.channel 0).timer = some (.clean, 10000) ∧ (powered.channel 0).state = .on ∧
    dueAt 10000 10000 = true := by decide +kernel
/-- `waiting` with channel 0 tripped and its cooldown over: the waiter of that channel is the head, and fits. -/
def cooled : State := { after (.trip 0) waiting with tick := 1000 }
theorem witness_ChannelTimersExpire_head :
    cooled.resetSafe = false ∧ (cooled.channel 0).timer = some (.cooldown, 1000) ∧ dueAt cooled.tick 1000 = true ∧
      (cooled.channel 0).state = .faulted ∧ cooled.mode = .run ∧ cooled.shed = .idle ∧ cooled.waitQueue = 1 :: [] ∧
      (cooled.slot 1).record = some waiter ∧ waiter.isQueued = true ∧ waiter.channel = 0 ∧
      (cooled.channel 0).sum + waiter.amount ≤ (cooled.channel 0).profile.ceiling ∧
      cooled.committed + waiter.amount + (if waiter.cls = 0 then 0 else cooled.settings.reserve0) ≤ cooled.budget ∧
      (cooled.channel 0).live = 0 := by decide +kernel
theorem witness_TierLinesSettle :
    (3 : Tier) ≠ ready.selected ∧ (0 : Tier) = ready.selected ∧
      (after (.lineChange 3) ready).pendingTier = some 3 ∧ (after (.lineChange 3) ready).settleTimer = some 20 ∧
      dueAt 20 20 = true ∧ (after (.lineChange 3) ready).resetSafe = false := by decide +kernel
theorem witness_IgnoredEventsChangeTheLevelAlone :
    (ready.channel 0).state ≠ .starting ∧ (held.channel 0).state ≠ .on ∧ (ready.channel 0).state.drives = false ∧
      (after .safeNFall held).mode = .safe ∧ (after .safeNFall held).resetSafe = false := by decide +kernel

/-! ### Notices, the shed evaluation and the queue walk -/

theorem witness_PostedKindsMerge :
    (noticed.slot 0).record = some noticedGrant ∧ noticedGrant.kinds.reduce = true ∧
      noticedGrant.kinds.withdrawn = false ∧ (buried.slot 0).record = some tombstone ∧
      tombstone.kinds = { retired := true } ∧ (held.slot 0).record = some grant ∧ grant.kinds.isEmpty = true :=
  ⟨noticed_record, rfl, rfl, buried_record, rfl, held_record, rfl⟩

/-- `held` under a budget of 50 dW has a candidate, and is not yet evaluated. -/
theorem witness_VictimsAreChosenInOrder :
    ({ held with budget := 50 } : State).admission.Nodup ∧ candidates { held with budget := 50 } = [0] ∧
      ({ held with budget := 50 } : State).budget < projected { held with budget := 50 } := by
  decide +kernel

/-- The notice of `noticed` fits again once the budget is 300 dW. -/
theorem witness_EveryNoticeThatFitsIsWithdrawn :
    noticed.shedList.Nodup ∧ projected noticed ≤ noticed.budget ∧ noticed.shedList = [0] := by decide +kernel
theorem witness_WalkLeavesOnlyWhatCannotBeAdmitted :
    waiting.mode = .run ∧ waiting.shed = .idle ∧ waiting.waitQueue.Nodup ∧ waiting.waitQueue = [1] ∧
      waiting.committed ≤ waiting.budget := by decide +kernel

end Sys2Proof.Tests
end

section
/-! PROOF. O33: what LIST answers (R23). The port, session and controller state tests pass, LIST's own two checks
decide between RANGE, NOTOWNER and OK, and the matches are collected in slot order. -/

namespace Sys2Proof.Machine

variable {s : State} {p : PortId} {c : ClientId} {filters client channel first : Byte}

/-! ## Check orders -/

/-- The first check that fails decides the answer (R60, R172). -/
theorem checked_of_failure {checks : State → List (Bool × Result)} {e : Result} (f : State → State × Reply)
    (h : firstFailure (checks s) = some e) : checked checks f s = refuse e s := by
  simp only [checked, h]

/-- Where every check passes, the action is taken. -/
theorem checked_of_pass {checks : State → List (Bool × Result)} (f : State → State × Reply)
    (h : firstFailure (checks s) = none) : checked checks f s = f s := by
  simp only [checked, h]

/-- The port, session and controller state tests pass, and leave the decision to the checks that follow them. -/
theorem firstFailure_client_append (may : ClientMayAct p c s) (notSafe : s.mode ≠ .safe)
    (rest : List (Bool × Result)) :
    firstFailure (clientChecks p c s.mode.notSafe s ++ rest) = firstFailure rest := by
  rw [firstFailure_append, firstFailure_client may ((Mode.notSafe_iff _).2 notSafe), Option.none_or]

/-! ## LIST (R23) -/

/-- A LIST whose action leaves the state as it was answers, and changes nothing else. -/
theorem list_onlyAnswers {a : Reply} (may : ClientMayAct p c s)
    (h : listAct p c filters client channel first s = (s, a)) :
    OnlyAnswers p (.list p c filters client channel first) a s :=
  refused_only_answers may.settled rfl h

/-- The ranges of R23, in the words of the statement. -/
theorem listFieldsOk_eq (filters client channel first : Byte) :
    listFieldsOk filters client channel first =
      (decide (filters.toNat ≤ 3) && (!filters.getLsbD 0 || decide (client.toNat ≤ 15))
        && (!filters.getLsbD 1 || decide (channel.toNat ≤ 23)) && decide (first.toNat ≤ 63)) := by
  simp only [listFieldsOk, channelOk, Nat.lt_succ_iff]

/-- The matches are the slots at or above the first slot whose record passes the filters. -/
theorem listMatches_eq (c : ClientId) (filters client channel first : Byte) (s : State) :
    listMatches c filters client channel first s =
      (List.finRange 64).filter fun j =>
        decide (first.toNat ≤ j.val) && (s.slot j).record.any (listSelects c filters client channel) := by
  simp only [listMatches, slotsWhere, List.filter_filter]

/-- The two bytes of a handle in a response are those of the slot's current handle. -/
theorem byte2_handleOf (j : SlotId) (s : State) :
    byte2 (handleOf j (s.slot j).gen) = halfBytes (currentHandle j s) :=
  byte2_eq_halfBytes _

/-- A field out of range is refused with RANGE. -/
theorem listAct_range (may : ClientMayAct p c s) (notSafe : s.mode ≠ .safe)
    (outside : listFieldsOk filters client channel first = false) :
    listAct p c filters client channel first s = (s, { result := .range }) := by
  refine checked_of_failure _ ?_
  rw [firstFailure_client_append may notSafe, outside]
  rfl

/-- A client filter of client 1 to 15 that names another client is refused with NOTOWNER. -/
theorem listAct_notOwner (may : ClientMayAct p c s) (notSafe : s.mode ≠ .safe)
    (inside : listFieldsOk filters client channel first = true) (plain : c ≠ 0)
    (byClient : filters.getLsbD 0 = true) (another : client.toNat ≠ c.val) :
    listAct p c filters client channel first s = (s, { result := .notOwner }) := by
  refine checked_of_failure _ ?_
  rw [firstFailure_client_append may notSafe, inside, byClient, decide_eq_false plain, decide_eq_false another]
  rfl

/-- Any other LIST is answered with the count of the matches and the handles of the first 16. -/
theorem listAct_ok (may : ClientMayAct p c s) (notSafe : s.mode ≠ .safe)
    (inside : listFieldsOk filters client channel first = true)
    (mayFilter : c = 0 ∨ filters.getLsbD 0 = false ∨ client.toNat = c.val) :
    listAct p c filters client channel first s =
      (s, { result := .ok
            payload := byte1 (listMatches c filters client channel first s).length ++
              ((listMatches c filters client channel first s).take 16).flatMap fun j =>
                halfBytes (currentHandle j s) }) := by
  have owns : (decide (c = 0) || !filters.getLsbD 0 || decide (client.toNat = c.val)) = true := by
    simpa [or_assoc] using mayFilter
  refine (checked_of_pass _ ?_).trans ?_
  · rw [firstFailure_client_append may notSafe, inside, owns]
    rfl
  · simp only [taken, byte2_handleOf]

/-- Settles O33: LIST's own two checks decide the answer, and the model's matches are those of the statement. -/
theorem listReturnsTheMatches : Obligations.ListReturnsTheMatches := by
  intro p c filters client channel first s may notSafe byClient byChannel i inRange selects found
  have fields : listFieldsOk filters client channel first = inRange := listFieldsOk_eq ..
  have matched : listMatches c filters client channel first s = found := listMatches_eq ..
  refine ⟨fun outside => ?_, fun inside plain filtered another => ?_, fun inside mayFilter => ?_⟩
  · exact list_onlyAnswers may (listAct_range may notSafe (fields.trans outside))
  · exact list_onlyAnswers may (listAct_notOwner may notSafe (fields.trans inside) plain filtered another)
  · rw [← matched]
    exact list_onlyAnswers may (listAct_ok may notSafe (fields.trans inside) mayFilter)

end Sys2Proof.Machine
end

section
/-! PROOF. O27: what RENEW does to a record that its client names (R35). The checks of R4 pass, the phase and the kind
of the record decide between OK and BADSTATE, and the one change is the write of that record. -/

namespace Sys2Proof.Machine

variable {s : State} {p : PortId} {c : ClientId} {h : Half} {i : SlotId} {r : Record}

/-! ## Writing one record -/

/-- Writing a record leaves the lists, the committed total, the shed engine and the event flags. -/
theorem ListsKept.setRecord (i : SlotId) (r : Record) (s : State) : ListsKept s (s.setRecord i r) :=
  ⟨rfl, rfl, rfl, ⟨rfl, rfl, rfl, rfl⟩⟩

/-- Writing a record touches its slot alone, no channel and no client. -/
theorem Untouched.setRecord (i : SlotId) (r : Record) (s : State) :
    Untouched (fun j => j = i) (fun _ => False) (fun _ => False) s (s.setRecord i r) where
  part         := by constructor <;> rfl
  slots _ hj   := s.slot_setRecord_other r hj
  channels _ _ := rfl
  clients _ _  := rfl

/-- A command whose action writes the record `r` in slot `i` leaves exactly that record there, and all else as it
was. -/
theorem takes_setRecord {k : Instr} {a : Reply} {f : State → State × Reply} (hx : exec k s = command p k f s)
    (settled : s.resetSafe = false) (hf : f s = (s.setRecord i r, a)) :
    Takes p k a s fun t =>
      t.slot i = { gen := (s.slot i).gen, record := some r } ∧
      ListsKept s t ∧ Untouched (fun j => j = i) (fun _ => False) (fun _ => False) s t := by
  have ports : SamePorts s (s.setRecord i r) := ⟨rfl, rfl, rfl⟩
  refine takes_of hx settled hf ports fun u part body => ⟨?_, ?_, ?_⟩
  · exact (body.slot i).trans (s.slot_setRecord_same i r)
  · exact (ListsKept.setRecord i r s).same body
  · exact (Untouched.setRecord i r s).same part body

/-! ## RENEW (R35) -/

/-- A RENEW or a RESIZE finds the record of its own that it names. -/
theorem NamesOwn.changeRecord (own : NamesOwn p c h i r s) (k : Instr) :
    changeRecord k p c h true s = .ok (i, r) :=
  (changeRecord_open k own.may own.serves).trans
    (ownRecord_ok own.may own.serves own.names.handle own.names.record own.owner)

/-- RENEW of a live LEASED record counts the new deadline from now, whatever the old one was. -/
theorem renewAct_leased {powered : Bool} {lease : Option Tick} {notice : Option Notice} {len : Nat}
    (own : NamesOwn p c h i r s) (live : r.phase = .live powered lease notice) (leased : r.kind = .leased len) :
    renewAct p c h s =
      (s.setRecord i { r with phase := .live powered (some (deadlineIn len s)) notice },
        { result := .ok, payload := byte4 (deadlineIn len s).toNat }) := by
  simp only [renewAct, own.changeRecord, live, leased, taken]

/-- RENEW of a record that is not live, or has no lease, is refused with BADSTATE. -/
theorem renewAct_badState (own : NamesOwn p c h i r s) (unfit : r.isLive = false ∨ r.kind = .standing) :
    renewAct p c h s = (s, { result := .badState }) := by
  simp only [renewAct, own.changeRecord]
  split
  next powered lease notice len live leased =>
    have isLive : r.isLive = true := by rw [Record.isLive, live]
    simp [isLive, leased] at unfit
  next => rfl

/-- Settles O27: the two answers of RENEW are the two branches of its action, and the accepted one writes the record
of its slot. -/
theorem renewMovesTheLease : Obligations.RenewMovesTheLease := by
  intro p c h i r s own
  refine ⟨fun powered lease notice len live leased => ?_, fun unfit => ?_⟩
  · exact takes_setRecord rfl own.may.settled (renewAct_leased own live leased)
  · exact refused_only_answers own.may.settled rfl (renewAct_badState own unfit)

end Sys2Proof.Machine
end

section
/-! PROOF. O54: what a line change does to the settle timer, and what its expiry does (R44, R45, R47, R49). The expiry
selects the pending tier and recomputes the budget; what is left to show is that the evaluation of a changed budget,
and the walk that may follow it in the same claim, leave the shed state as R87 has it. -/

namespace Sys2Proof.Machine

variable {s t u : State} {v : Tier} {d : Tick}

/-! ## Carrying over to the state after the claim -/

theorem SameHoldings.same (h : SameHoldings s t) (body : SameBody t u) : SameHoldings s u := by
  intro c
  rw [body.client]
  exact h c

theorem ShedSettled.same (h : ShedSettled t) (part : SamePart t u) (body : SameBody t u) : ShedSettled u where
  shedding := by rw [body.shed, body.shedList]; exact h.shedding
  idle     := by rw [body.shed, body.committed, part.budget]; exact h.idle
  strained := by rw [body.shed, body.committed, part.budget]; exact h.strained

/-! ## What an evaluation finds -/

/-- The three rows of R87's table. -/
theorem shedFound_cases (s : State) :
    (shedFound s = .shedding ∧ s.shedList ≠ []) ∨
    (shedFound s = .idle ∧ s.shedList = [] ∧ s.committed ≤ s.budget) ∨
    (shedFound s = .strained ∧ s.shedList = [] ∧ s.budget < s.committed) := by
  unfold shedFound
  by_cases noticed : s.shedList = []
  · by_cases within : s.committed ≤ s.budget
    · exact .inr (.inl ⟨by simp [noticed, within], noticed, within⟩)
    · exact .inr (.inr ⟨by simp [noticed, within], noticed, not_le.1 within⟩)
  · exact .inl ⟨by simp [noticed], noticed⟩

/-- A state whose shed state is the one that R87 sets is settled. -/
theorem ShedSettled.of_found (h : s.shed = shedFound s) : ShedSettled s := by
  obtain ⟨e, noticed⟩ | ⟨e, unnoticed, within⟩ | ⟨e, unnoticed, above⟩ := shedFound_cases s <;> rw [e] at h
  · exact ⟨by simp [h, noticed], by simp [h], by simp [h]⟩
  · exact ⟨by simp [h, unnoticed], fun _ => within, by simp [h]⟩
  · exact ⟨by simp [h, unnoticed], by simp [h], fun _ => above⟩

/-- An evaluation leaves the shed state that R87 sets. -/
theorem evaluate_settled (s : State) : ShedSettled (evaluate s) := by
  rw [evaluate_eq_weigh]
  exact .of_found rfl

/-! ## The walk stays within the effective budget -/

/-- No class has more headroom than what the budget leaves over the committed total (R48). -/
theorem headroom_le (cls : Fin 4) (s : State) : headroom cls s ≤ s.budget - s.committed := by
  unfold headroom
  split <;> omega

/-- An admission adds the amount of its record to the committed total (R61). -/
theorem admitQueued_committed {i : SlotId} {r : Record} (hr : (s.slot i).record = some r) :
    (admitQueued i s).committed = s.committed + r.amount := by
  simp only [admitQueued, hr]
  rw [(EvaluationKeeps.post _ _ _).committed]
  rfl

/-- A walk that starts within the effective budget ends within it (R69). -/
theorem walkOver_within (l : List SlotId) (within : s.committed ≤ s.budget) :
    (walkOver l s).committed ≤ (walkOver l s).budget := by
  induction l generalizing s with
  | nil => exact within
  | cons i rest ih =>
    unfold walkOver
    split
    · exact ih within
    · exact within
    next taken =>
      obtain ⟨r, hr, queued, -, -, room⟩ := visit_take taken
      have budget : (admitQueued i s).budget = s.budget := (admitQueued_handOff hr queued).frame.part.budget
      have committed := admitQueued_committed hr
      have most := headroom_le r.cls s
      exact ih (by omega)

/-- A walk leaves a settled shed state settled: it runs only in IDLE, where it starts within the budget (R68). -/
theorem ShedSettled.walk (h : ShedSettled s) : ShedSettled (walk s) := by
  by_cases idle : s.shed = .idle
  · have kept := WalkKeeps.walk s
    have within : (Machine.walk s).committed ≤ (Machine.walk s).budget := by
      unfold Machine.walk
      split
      · exact walkOver_within _ (h.idle idle)
      · exact h.idle idle
    refine ⟨?_, fun _ => within, fun strained => ?_⟩
    · rw [kept.shed, kept.shedList]
      exact h.shedding
    · simp [kept.shed, idle] at strained
  · rw [walk_idle (.inr (.inl idle))]
    exact h

/-- A claim that requests an evaluation ends settled, whether or not a walk follows (R20, R87). -/
theorem handOn_settled (w : Bool) (s : State) : ShedSettled (handOn true w s) := by
  have evaluated : ShedSettled (evaluate s) := evaluate_settled s
  obtain e | e := handOn_cases true w s <;> rw [e]
  · exact evaluated
  · exact evaluated.walk

/-- A recomputed budget that comes out as it was changes nothing (R47). -/
theorem rebudget_unchanged (same : budgetNow s = s.budget) : rebudget s = s := by
  obtain ⟨-, e⟩ | ⟨changed, -⟩ := rebudget_cases s
  · exact e
  · exact absurd same changed

/-- Recomputing the budget touches no port. -/
theorem rebudget_ports (s : State) : SamePorts s (rebudget s) := by
  obtain ⟨client, management, response⟩ := (rebudget_handOff s).ports
  exact ⟨client, management, response⟩

/-- A changed budget is followed by an evaluation (R49). -/
theorem rebudget_settled (changed : budgetNow s ≠ s.budget) : ShedSettled (rebudget s) := by
  obtain ⟨same, -⟩ | ⟨-, e⟩ := rebudget_cases s
  · exact absurd same changed
  · rw [e]
    exact handOn_settled _ _

/-! ## The settle timer -/

/-- A line change to a tier other than the selected one sets the settle timer, or sets it again (R44). -/
theorem takeLineChange_other (other : v ≠ s.selected) :
    takeLineChange v s =
      { s with tierLines := v, pendingTier := some v, settleTimer := some (deadlineIn s.settings.tierSettle s) } :=
  if_neg other

/-- A line change back to the selected tier cancels the settle timer (R44). -/
theorem takeLineChange_selected (same : v = s.selected) :
    takeLineChange v s = { s with tierLines := v, pendingTier := none, settleTimer := none } :=
  if_pos same

/-- The pending tier `v` selected, before the budget is recomputed (R45). -/
def selectTier (v : Tier) (s : State) : State :=
  raise .tierChanged { s with selected := v, pendingTier := none, settleTimer := none }

theorem selectTier_ports (v : Tier) (s : State) : SamePorts s (selectTier v s) := ⟨rfl, rfl, rfl⟩

/-- A due settle expiry selects the pending tier and recomputes the budget. -/
theorem takeSettle_due (pending : s.pendingTier = some v) (armed : s.settleTimer = some d)
    (due : dueAt s.tick d = true) : takeSettle s = rebudget (selectTier v s) := by
  simp only [takeSettle, armed, due, if_true, pending, Option.getD_some, selectTier]

/-- A due settle expiry arises, so it is taken as a claim (R29). -/
theorem exec_settleExpiry_due (armed : s.settleTimer = some d) (due : dueAt s.tick d = true) :
    exec .settleExpiry s = claim takeSettle s :=
  claimWhen_arises takeSettle s (by simp [placeDue, deadlineOf, armed, due])

/-- Settles O54: a line change by its two cases, a settle expiry by whether the recomputed budget differs. -/
theorem tierLinesSettle : Obligations.TierLinesSettle := by
  refine ⟨fun v s => ?_, fun v d s settled pending armed due => ?_⟩
  · refine ⟨takeLineChange v s, rfl, ?_⟩
    by_cases same : v = s.selected
    · rw [takeLineChange_selected same]
      exact ⟨⟨rfl, rfl, rfl⟩, by constructor <;> rfl, rfl, rfl, rfl, fun other => absurd same other,
        fun _ => ⟨rfl, rfl⟩, by constructor <;> rfl⟩
    · rw [takeLineChange_other same]
      exact ⟨⟨rfl, rfl, rfl⟩, by constructor <;> rfl, rfl, rfl, rfl, fun _ => ⟨rfl, rfl⟩,
        fun e => absurd e same, by constructor <;> rfl⟩
  · have handedOn := rebudget_handOff (selectTier v s)
    refine happens_of (exec_settleExpiry_due armed due) settled (takeSettle_due pending armed due)
      ((selectTier_ports v s).trans (rebudget_ports _)) fun u part body => ⟨?_, ?_, fun same => ?_, fun changed => ?_⟩
    · exact handedOn.frame.same part body
    · exact SameHoldings.same handedOn.holdings body
    · rw [rebudget_unchanged (s := selectTier v s) same] at body
      exact SameBody.trans (by constructor <;> rfl) body
    · exact (rebudget_settled (s := selectTier v s) changed).same part body

end Sys2Proof.Machine
end

section
/-! PROOF. O57: which records an evaluation chooses as victims, and what it asks of each (R83, R84). The candidates
stand in a strict order, so none stands twice. The victims are the first `k` of them, for the least `k` after which
projected is at or below the budget; each is noticed once, between postings that leave its slot as it is. -/

namespace Sys2Proof.Machine

variable {s : State} {i j : SlotId} {r : Record} {p : Bool} {lease : Option Tick} {q k m : Nat} {l : List SlotId}

/-! ## The candidates (R83) -/

theorem mem_activeOfClass {c : Fin 4} : j ∈ activeOfClass c s ↔
    j ∈ s.admission ∧ ∃ r, (s.slot j).record = some r ∧ r.isActive = true ∧ r.cls = c := by
  simp [activeOfClass, Option.any_eq_true]

theorem classOf_of_mem_activeOfClass {c : Fin 4} (h : j ∈ activeOfClass c s) : classOf s j = c.val := by
  obtain ⟨-, r, hr, -, cls⟩ := mem_activeOfClass.1 h
  simp [classOf, hr, cls]

/-- The candidates are the ACTIVE records of classes 1 to 3. -/
theorem mem_candidates : j ∈ candidates s ↔
    j ∈ s.admission ∧ ∃ r, (s.slot j).record = some r ∧ r.isActive = true ∧ r.cls ≠ 0 := by
  have classes : ∀ c : Fin 4, c ≠ 0 ↔ (c = 3 ∨ c = 2) ∨ c = 1 := by decide
  simp only [candidates, List.mem_append, mem_activeOfClass, classes, and_or_left, exists_or]

/-- A list without duplicates holds its elements by rising index. -/
theorem pairwise_idxOf_of_nodup (h : l.Nodup) : l.Pairwise fun i j => l.idxOf i < l.idxOf j := by
  rw [List.pairwise_iff_getElem]
  intro a b ha hb lt
  rwa [h.idxOf_getElem a ha, h.idxOf_getElem b hb]

/-- Within a class, the newer admission stands first. -/
theorem activeOfClass_newestFirst (c : Fin 4) (h : s.admission.Nodup) :
    (activeOfClass c s).Pairwise fun i j => s.admission.idxOf j < s.admission.idxOf i :=
  (List.pairwise_reverse.2 (pairwise_idxOf_of_nodup h)).filter _

/-- The candidate `i` is taken before the candidate `j`: it is of a worse class, or newer in the same class. -/
def TakenBefore (s : State) (i j : SlotId) : Prop :=
  classOf s j < classOf s i ∨ (classOf s j = classOf s i ∧ s.admission.idxOf j < s.admission.idxOf i)

theorem activeOfClass_ordered (c : Fin 4) (h : s.admission.Nodup) :
    (activeOfClass c s).Pairwise (TakenBefore s) :=
  (activeOfClass_newestFirst c h).imp_of_mem fun hi hj newer =>
    .inr ⟨by rw [classOf_of_mem_activeOfClass hi, classOf_of_mem_activeOfClass hj], newer⟩

theorem takenBefore_of_worse {a b : Fin 4} (worse : b < a) (hi : i ∈ activeOfClass a s)
    (hj : j ∈ activeOfClass b s) : TakenBefore s i j :=
  .inl (by rwa [classOf_of_mem_activeOfClass hi, classOf_of_mem_activeOfClass hj])

/-- Worse classes come first, and newer admissions first within a class. -/
theorem candidates_ordered (h : s.admission.Nodup) : (candidates s).Pairwise (TakenBefore s) := by
  unfold candidates
  refine List.pairwise_append.2 ⟨List.pairwise_append.2 ⟨activeOfClass_ordered 3 h, activeOfClass_ordered 2 h,
    fun i hi j hj => takenBefore_of_worse (by decide) hi hj⟩, activeOfClass_ordered 1 h, fun i hi j hj => ?_⟩
  obtain hi | hi := List.mem_append.1 hi
  · exact takenBefore_of_worse (by decide) hi hj
  · exact takenBefore_of_worse (by decide) hi hj

theorem candidates_nodup (h : s.admission.Nodup) : (candidates s).Nodup :=
  (candidates_ordered h).imp fun before e => by
    subst e
    simp [TakenBefore] at before

/-! ## One posting of REDUCE (R84) -/

theorem Record.phase_of_active (h : r.isActive = true) : ∃ p lease, r.phase = .live p lease none := by
  unfold Record.isActive at h
  split at h
  · next p lease e => exact ⟨p, lease, e⟩
  · cases h

/-- What R83 asks of a victim, with the comparison written as a sum. -/
theorem requiredOf_eq (r : Record) (need : Nat) : requiredOf r need =
    match r.floor with
    | some f => if f + need ≤ r.amount then r.amount - need else 0
    | none => 0 := by
  unfold requiredOf
  cases r.floor with
  | none => rfl
  | some f => exact if_congr (by omega) rfl rfl

/-- Posting to one record leaves every other slot as it is. -/
theorem post_slot_other (kind : NoticeKind) (s : State) (h : j ≠ i) : (post i kind s).slot j = s.slot j := by
  unfold post
  split
  · exact s.slot_setRecord_other _ h
  · rfl

theorem post_slot_same (kind : NoticeKind) (hr : (s.slot i).record = some r) : (post i kind s).slot i =
    { gen := (s.slot i).gen, record := some { r with kinds := r.kinds.merge kind } } := by
  simp only [post, hr, setKinds, State.slot_setClient, State.slot_setRecord_same]

theorem post_shedList (i : SlotId) (kind : NoticeKind) (s : State) : (post i kind s).shedList = s.shedList := by
  unfold post
  split <;> rfl

/-- The notice that an evaluation posts with a required amount. -/
def freshNotice (q : Nat) (s : State) : Notice :=
  { required := q, deadline := s.tick + BitVec.ofNat 32 s.settings.noticeTime, busy := 0 }

/-- The state once the ACTIVE record of slot `i` is NOTICED, before REDUCE is posted to it. -/
def setNotice (i : SlotId) (r : Record) (p : Bool) (lease : Option Tick) (q : Nat) (s : State) : State :=
  { s.setRecord i { r with phase := .live p lease (some (freshNotice q s)) } with
    shedList := s.shedList ++ [i], relief := s.relief + reliefOf r.amount (freshNotice q s) }

theorem postReduce_active (hr : (s.slot i).record = some r) (hp : r.phase = .live p lease none) :
    postReduce i q s = post i .reduce (setNotice i r p lease q s) := by
  unfold postReduce
  simp only [hr, hp]
  rfl

theorem setNotice_slot (i j : SlotId) (r : Record) (p : Bool) (lease : Option Tick) (q : Nat) (s : State) :
    (setNotice i r p lease q s).slot j =
      (s.setRecord i { r with phase := .live p lease (some (freshNotice q s)) }).slot j := rfl

/-- The victim's record after the posting: it is NOTICED with a new notice, and keeps its amount. -/
theorem postReduce_slot_same (hr : (s.slot i).record = some r) (hp : r.phase = .live p lease none) :
    (postReduce i q s).slot i =
      { gen := (s.slot i).gen,
        record := some { r with
          phase := .live p lease (some (freshNotice q s))
          kinds := { r.kinds with withdrawn := false, reduce := true } } } := by
  have noticed := (setNotice_slot i i r p lease q s).trans (s.slot_setRecord_same i _)
  rw [postReduce_active hr hp, post_slot_same (r := { r with phase := _ }) .reduce (congrArg Slot.record noticed),
    noticed]
  rfl

theorem postReduce_slot_other (q : Nat) (s : State) (h : j ≠ i) : (postReduce i q s).slot j = s.slot j := by
  unfold postReduce
  split
  · split
    · exact (post_slot_other _ _ h).trans (s.slot_setRecord_other _ h)
    · rfl
  · rfl

theorem postReduce_shedList (hr : (s.slot i).record = some r) (hp : r.phase = .live p lease none) :
    (postReduce i q s).shedList = s.shedList ++ [i] := by
  rw [postReduce_active hr hp, post_shedList]
  rfl

/-! ## The choice along a list -/

theorem chooseVictims_budget (l : List SlotId) (s : State) : (chooseVictims l s).budget = s.budget :=
  (chooseVictims_handOff l s).frame.part.budget

/-- At or below the budget nobody is chosen. -/
theorem chooseVictims_within (l : List SlotId) (h : projected s ≤ s.budget) : chooseVictims l s = s := by
  cases l with
  | nil => rfl
  | cons i rest => exact if_pos h

/-- A choice from two lists is a choice from the first and then from the second. -/
theorem chooseVictims_append (l l' : List SlotId) (s : State) :
    chooseVictims (l ++ l') s = chooseVictims l' (chooseVictims l s) := by
  induction l generalizing s with
  | nil => rfl
  | cons i rest ih =>
    by_cases within : projected s ≤ s.budget
    · rw [chooseVictims_within _ within, chooseVictims_within _ within, chooseVictims_within _ within]
    · simp only [List.cons_append, chooseVictims, within, if_false]
      cases (s.slot i).record with
      | some r => exact ih _
      | none => exact ih s

/-- Above the budget, the next record is asked for what is needed now. -/
theorem chooseVictims_one (above : s.budget < projected s) (hr : (s.slot i).record = some r) :
    chooseVictims [i] s = postReduce i (requiredOf r (projected s - s.budget)) s := by
  simp only [chooseVictims, not_le.2 above, if_false, hr]

/-- A slot that is not in the list is left as it is. -/
theorem chooseVictims_slot_other (s : State) (h : j ∉ l) : (chooseVictims l s).slot j = s.slot j := by
  induction l generalizing s with
  | nil => rfl
  | cons i rest ih =>
    have other := List.ne_of_not_mem_cons h
    have out := List.not_mem_of_not_mem_cons h
    unfold chooseVictims
    split
    · rfl
    split
    · exact (ih _ out).trans (postReduce_slot_other _ s other)
    · exact ih s out

/-! ## The victims are the first candidates -/

/-- Projected is above the budget before each of the first `k` records of `l` is visited. -/
def OverBefore (l : List SlotId) (k : Nat) (s : State) : Prop :=
  ∀ m, m < k → s.budget < projected (chooseVictims (l.take m) s)

/-- The choice takes the first records of the list, and stops once projected is at or below the budget. -/
theorem chooseVictims_stops (l : List SlotId) (s : State) :
    ∃ k, k ≤ l.length ∧ chooseVictims l s = chooseVictims (l.take k) s ∧
      (k = l.length ∨ projected (chooseVictims l s) ≤ s.budget) ∧ OverBefore l k s := by
  have stops : ∃ k, k = l.length ∨ projected (chooseVictims (l.take k) s) ≤ s.budget := ⟨_, .inl rfl⟩
  have same : chooseVictims l s = chooseVictims (l.take (Nat.find stops)) s := by
    obtain all | within := Nat.find_spec stops
    · rw [all, List.take_length]
    · have rest := chooseVictims_within (l.drop (Nat.find stops))
        (within.trans_eq (chooseVictims_budget (l.take (Nat.find stops)) s).symm)
      rwa [← chooseVictims_append, List.take_append_drop] at rest
  refine ⟨Nat.find stops, Nat.find_min' stops (.inl rfl), same, ?_, fun m hm => ?_⟩
  · rw [same]
    exact Nat.find_spec stops
  · exact not_le.1 (not_or.1 (Nat.find_min stops hm)).2

/-- Every record of `l` is ACTIVE. -/
def AllActive (l : List SlotId) (s : State) : Prop :=
  ∀ j ∈ l, ∃ r p lease, (s.slot j).record = some r ∧ r.phase = .live p lease none

theorem candidates_allActive (s : State) : AllActive (candidates s) s := by
  intro j hj
  obtain ⟨-, r, hr, active, -⟩ := mem_candidates.1 hj
  obtain ⟨p, lease, hp⟩ := Record.phase_of_active active
  exact ⟨r, p, lease, hr, hp⟩

theorem not_mem_take_of_nodup (nodup : l.Nodup) (hm : m < l.length) : l[m] ∉ l.take m := by
  rw [← List.take_append_drop m l, List.drop_eq_getElem_cons hm] at nodup
  exact fun h => List.disjoint_of_nodup_append nodup h List.mem_cons_self

theorem not_mem_drop_of_nodup (nodup : l.Nodup) (hm : m < l.length) : l[m] ∉ l.drop (m + 1) := by
  rw [← List.take_append_drop m l, List.drop_eq_getElem_cons hm] at nodup
  exact (List.nodup_cons.1 nodup.of_append_right).1

/-- The record that is next after `m` victims has been left as it was, and is the next victim. -/
theorem chooseVictims_take_succ (nodup : l.Nodup) (hm : m < l.length)
    (above : s.budget < projected (chooseVictims (l.take m) s)) (hr : (s.slot l[m]).record = some r) :
    (chooseVictims (l.take m) s).slot l[m] = s.slot l[m] ∧
    chooseVictims (l.take (m + 1)) s =
      postReduce l[m] (requiredOf r (projected (chooseVictims (l.take m) s) - s.budget))
        (chooseVictims (l.take m) s) := by
  have kept := chooseVictims_slot_other s (not_mem_take_of_nodup nodup hm)
  rw [List.take_succ_eq_append_getElem hm, chooseVictims_append, ← chooseVictims_budget (l.take m) s]
  rw [← chooseVictims_budget (l.take m) s] at above
  exact ⟨kept, chooseVictims_one above (by rw [kept, hr])⟩

/-- The victims are appended to the shed list in the order they are chosen. -/
theorem chooseVictims_shedList (nodup : l.Nodup) (active : AllActive l s) (hk : k ≤ l.length)
    (above : OverBefore l k s) : (chooseVictims (l.take k) s).shedList = s.shedList ++ l.take k := by
  induction k with
  | zero => simp [chooseVictims]
  | succ m ih =>
    have before := ih (by omega) fun a ha => above a (by omega)
    obtain ⟨r, p, lease, hr, hp⟩ := active l[m] (List.getElem_mem hk)
    obtain ⟨kept, next⟩ := chooseVictims_take_succ nodup hk (above m (by omega)) hr
    rw [next, postReduce_shedList (by rw [kept, hr]) hp, before, List.take_succ_eq_append_getElem hk,
      List.append_assoc]

/-- What becomes of a victim: it is asked for the need at the moment it is chosen, and later postings leave it. -/
theorem chooseVictims_victim (nodup : l.Nodup) (hm : m < l.length)
    (above : s.budget < projected (chooseVictims (l.take m) s)) (hr : (s.slot l[m]).record = some r)
    (hp : r.phase = .live p lease none) :
    (chooseVictims l s).slot l[m] =
      { gen := (s.slot l[m]).gen,
        record := some { r with
          phase := .live p lease (some (freshNotice
            (requiredOf r (projected (chooseVictims (l.take m) s) - s.budget)) s))
          kinds := { r.kinds with withdrawn := false, reduce := true } } } := by
  obtain ⟨kept, next⟩ := chooseVictims_take_succ nodup hm above hr
  have part := (chooseVictims_handOff (l.take m) s).frame.part
  calc (chooseVictims l s).slot l[m]
      = (chooseVictims (l.drop (m + 1)) (chooseVictims (l.take (m + 1)) s)).slot l[m] := by
        rw [← chooseVictims_append, List.take_append_drop]
    _ = (chooseVictims (l.take (m + 1)) s).slot l[m] :=
        chooseVictims_slot_other _ (not_mem_drop_of_nodup nodup hm)
    _ = _ := by
        rw [next, postReduce_slot_same (by rw [kept, hr]) hp, kept, freshNotice, part.tick, part.settings]
        rfl

/-! ## The evaluation -/

/-- An evaluation that finds projected above the budget makes the choice over the candidates. -/
theorem evaluate_above (above : s.budget < projected s) :
    evaluate s =
      { chooseVictims (candidates s) s with shed := (evaluate s).shed, flags := (evaluate s).flags } := by
  have weighed : weigh s = chooseVictims (candidates s) s := if_pos above
  have evaluated := evaluate_eq_weigh s
  have shed : (evaluate s).shed = shedFound (weigh s) := congrArg State.shed evaluated
  rwa [← shed, weighed] at evaluated

/-- Settles O57: the victims are the candidates, in their order, up to where the choice stops. -/
theorem victimsAreChosenInOrder : Obligations.VictimsAreChosenInOrder := by
  intro s nodup t
  have distinct := candidates_nodup nodup
  have active := candidates_allActive s
  have keeps : EvaluationKeeps s t := .chooseVictims _ s
  obtain ⟨k, hk, same, stops, above⟩ := chooseVictims_stops (candidates s) s
  refine ⟨fun j => mem_candidates, candidates_ordered nodup, k, ?_, stops, above, fun m j hm hj => ?_,
    keeps.admission, keeps.committed, fun c => ⟨keeps.client c, ((chooseVictims_handOff _ s).holdings c).1⟩,
    fun n => congrArg (fun channels => channels[n]) keeps.channels, fun j out => ?_, evaluate_above⟩
  · exact (congrArg State.shedList same).trans (chooseVictims_shedList distinct active hk above)
  · obtain ⟨bound, rfl⟩ := List.getElem?_eq_some_iff.1 hj
    obtain ⟨r, p, lease, hr, hp⟩ := active _ (List.getElem_mem bound)
    have victim := chooseVictims_victim distinct bound (above m hm) hr hp
    rw [requiredOf_eq] at victim
    exact ⟨r, p, lease, hr, hp, victim⟩
  · exact (congrArg (State.slot · j) same).trans (chooseVictims_slot_other s out)

end Sys2Proof.Machine
end

section
/-! PROOF. O53: what the discharge, cooldown and clean timers do when they fall due (R118, R123, R124). A discharge and
a clean expiry write one channel and hand nothing on; a cooldown expiry writes one channel and triggers a walk, so what
is left to show is what the admissions of a walk do to that channel and to the head of the wait queue. -/

namespace Sys2Proof.Machine

variable {s t u : State} {i j : SlotId} {n : ChannelId} {r q : Record} {x : Channel} {d : Tick}

/-! ## One admission, part by part (R61) -/

theorem EvaluationKeeps.channel (h : EvaluationKeeps s t) (n : ChannelId) : t.channel n = s.channel n := by
  simp [State.channel, h.channels]

/-- The channel with one waiting record fewer. -/
def Channel.unqueued (x : Channel) : Channel := { x with queued := x.queued - 1 }

/-- The record `r` of slot `i` has left the wait queue and its channel's count of waiting records, and is not live
yet. -/
def unqueue (i : SlotId) (r : Record) (s : State) : State :=
  ({ s with waitQueue := without i s.waitQueue } : State).setChannel r.channel (s.channel r.channel).unqueued

/-- An admission takes the record out of the wait queue, makes it live and posts to it (R61, R62). -/
theorem admitQueued_eq (hr : (s.slot i).record = some r) :
    ∃ kind, admitQueued i s = post i kind (enterLive i r (unqueue i r s)) := by
  simp only [admitQueued, hr]
  exact ⟨_, rfl⟩

/-- The channel of an admitted record gains a grant; every other channel stays. -/
theorem admitQueued_channel (hr : (s.slot i).record = some r) (m : ChannelId) : (admitQueued i s).channel m =
    if m = r.channel then (s.channel r.channel).unqueued.gain s.tick r.amount else s.channel m := by
  obtain ⟨kind, e⟩ := admitQueued_eq hr
  rw [e, (EvaluationKeeps.post _ _ _).channel, enterLive, State.channel_setChannel, unqueue,
    State.channel_setChannel_same]
  split
  · rfl
  · next other => exact (State.channel_setChannel _ _ _ _).trans (if_neg other)

theorem admitQueued_waitQueue (hr : (s.slot i).record = some r) :
    (admitQueued i s).waitQueue = without i s.waitQueue := by
  obtain ⟨kind, e⟩ := admitQueued_eq hr
  rw [e, (EvaluationKeeps.post _ _ _).waitQueue]
  rfl

theorem admitQueued_admission (hr : (s.slot i).record = some r) :
    (admitQueued i s).admission = s.admission ++ [i] := by
  obtain ⟨kind, e⟩ := admitQueued_eq hr
  rw [e, (EvaluationKeeps.post _ _ _).admission]
  rfl

/-- An admission leaves every other slot as it is. -/
theorem admitQueued_slot_other (s : State) (h : j ≠ i) : (admitQueued i s).slot j = s.slot j := by
  unfold admitQueued
  split
  · exact (post_slot_other _ _ h).trans (State.slot_setRecord_other _ _ h)
  · rfl

/-- The admitted record is ACTIVE, out of the wait queue and in the admission list. -/
theorem admitQueued_wasAdmitted (hr : (s.slot i).record = some r) : WasAdmitted i r (admitQueued i s) := by
  obtain ⟨kind, e⟩ := admitQueued_eq hr
  obtain ⟨powered, lease, live⟩ := enterLive_slot (unqueue i r s) i r
  refine ⟨_, by rw [e, post_slot_same kind live], by constructor <;> rfl, rfl, ?_, ?_⟩
  · simp [admitQueued_waitQueue hr, mem_without]
  · simp [admitQueued_admission hr]

/-! ## What a walk keeps -/

/-- What every admission keeps, a walk over a list keeps (R69). -/
theorem walkOver_keeps {P : State → Prop} {l : List SlotId} (hs : P s)
    (step : ∀ i t, visit i t = .take → P t → P (admitQueued i t)) : P (walkOver l s) := by
  induction l generalizing s with
  | nil => exact hs
  | cons i rest ih =>
    unfold walkOver
    split
    · exact ih hs
    · exact hs
    next taken => exact ih (step i s taken hs)

/-- What every admission keeps, a triggered walk keeps (R68). -/
theorem walk_keeps {P : State → Prop} (hs : P s)
    (step : ∀ i t, visit i t = .take → P t → P (admitQueued i t)) : P (walk s) := by
  unfold walk
  split
  · exact walkOver_keeps hs step
  · exact hs

/-- A record that has been admitted stays admitted while others are: a walk takes QUEUED records alone. -/
theorem WasAdmitted.admitQueued (h : WasAdmitted j q s) (taken : visit i s = .take) :
    WasAdmitted j q (admitQueued i s) := by
  obtain ⟨q', hq', same, active, out, inside⟩ := h
  obtain ⟨r, hr, queued, -⟩ := visit_take taken
  have other : j ≠ i := by
    rintro rfl
    obtain ⟨p, lease, live⟩ := Record.phase_of_active active
    obtain rfl : q' = r := Option.some.inj (hq'.symm.trans hr)
    simp [Record.isQueued, live] at queued
  refine ⟨q', by rw [admitQueued_slot_other s other, hq'], same, active, ?_, ?_⟩
  · rw [admitQueued_waitQueue hr, mem_without]
    exact fun waits => out waits.1
  · rw [admitQueued_admission hr]
    exact List.mem_append_left _ inside

/-- The channel is OFF, or has been started at `now` (R106, R111). -/
def OffOrStartedAt (now : Tick) (x : Channel) : Prop :=
  x.state = .off ∧ x.en = false ∧ x.timer = none ∨
    x.state = .starting ∧ x.en = true ∧ x.timer = some (.start, now + BitVec.ofNat 32 x.profile.startTime)

/-- A grant that a channel gains starts it where it is OFF, and leaves a started one (R111). -/
theorem OffOrStartedAt.gain {now : Tick} (h : OffOrStartedAt now x) (amount : Nat) :
    OffOrStartedAt now (x.gain now amount) := by
  rw [Channel.gain_eq, Channel.withGrant]
  split
  · exact .inr ⟨rfl, rfl, rfl⟩
  · exact h

/-- A STARTING channel that gains a grant goes on starting. -/
theorem Channel.gain_starting (now : Tick) (amount : Nat) (h : x.state = .starting) :
    (x.gain now amount).state = .starting := by
  rw [Channel.gain_eq, Channel.withGrant]
  split
  · rfl
  · exact h

/-- The first grant of an OFF channel starts it (R111). -/
theorem Channel.gain_first (now : Tick) (amount : Nat) (off : x.state = .off) (first : x.live = 0) :
    (x.gain now amount).state = .starting := by
  rw [Channel.gain_eq, Channel.withGrant, if_pos ⟨first, off⟩]
  rfl

/-- A walk may start a channel that it finds OFF, and does nothing else to its state. -/
theorem walk_offOrStarted (h : OffOrStartedAt s.tick (s.channel n)) : OffOrStartedAt s.tick ((walk s).channel n) := by
  refine (walk_keeps (P := fun t => t.tick = s.tick ∧ OffOrStartedAt s.tick (t.channel n)) ⟨rfl, h⟩ ?_).2
  rintro i t taken ⟨now, either⟩
  obtain ⟨r, hr, queued, -⟩ := visit_take taken
  refine ⟨(admitQueued_handOff hr queued).frame.part.tick.trans now, ?_⟩
  rw [admitQueued_channel hr]
  split
  · next same =>
    subst same
    rw [now]
    exact OffOrStartedAt.gain (x := (t.channel r.channel).unqueued) either r.amount
  · exact either

/-- A walk leaves a STARTING channel STARTING. -/
theorem walkOver_starting (l : List SlotId) (h : (s.channel n).state = .starting) :
    ((walkOver l s).channel n).state = .starting := by
  refine walkOver_keeps (P := fun t => (t.channel n).state = .starting) h fun i t taken starting => ?_
  obtain ⟨r, hr, -⟩ := visit_take taken
  rw [admitQueued_channel hr]
  split
  · next same =>
    subst same
    exact Channel.gain_starting (x := (t.channel r.channel).unqueued) _ _ starting
  · exact starting

/-! ## The head of the wait queue -/

/-- The room that the statements ask for is the headroom of the record's class (R48). -/
theorem headroom_of_room (room : s.committed + q.amount + (if q.cls = 0 then 0 else s.settings.reserve0) ≤ s.budget) :
    q.amount ≤ headroom q.cls s := by
  unfold headroom
  split at room <;> next cls => simp only [cls, if_true, if_false]; omega

/-- A record that passes the tests of R69 is taken. -/
theorem visit_of_fits (hq : (s.slot j).record = some q) (queued : q.isQueued = true)
    (cool : (s.channel q.channel).state ≠ .faulted)
    (ceiling : (s.channel q.channel).sum + q.amount ≤ (s.channel q.channel).profile.ceiling)
    (room : q.amount ≤ headroom q.cls s) : visit j s = .take := by
  simp [visit, hq, queued, cool, not_lt.2 ceiling, not_lt.2 room]

/-- A walk that takes the head goes on along the rest of the queue. -/
theorem walk_head {rest : List SlotId} (run : s.mode = .run) (idle : s.shed = .idle) (head : s.waitQueue = j :: rest)
    (taken : visit j s = .take) : walk s = walkOver rest (admitQueued j s) := by
  simp only [walk, run, idle, and_self, if_true, head, walkOver, taken]

/-- The head that fits is admitted, and its channel, where this is the first grant of an OFF one, is started. -/
theorem walk_admits_head {rest : List SlotId} (run : s.mode = .run) (idle : s.shed = .idle)
    (head : s.waitQueue = j :: rest) (hq : (s.slot j).record = some q) (taken : visit j s = .take) :
    WasAdmitted j q (walk s) ∧
      ((s.channel q.channel).state = .off → (s.channel q.channel).live = 0 →
        ((walk s).channel q.channel).state = .starting) := by
  rw [walk_head run idle head taken]
  refine ⟨walkOver_keeps (admitQueued_wasAdmitted hq) fun _ _ taken h => h.admitQueued taken,
    fun off first => walkOver_starting _ ?_⟩
  rw [admitQueued_channel hq, if_pos rfl]
  exact Channel.gain_first (x := (s.channel q.channel).unqueued) _ _ off first

/-! ## Writing one channel -/

/-- Writing a channel leaves the lists, the committed total, the shed engine and the event flags. -/
theorem ListsKept.setChannel (n : ChannelId) (x : Channel) (s : State) : ListsKept s (s.setChannel n x) :=
  ⟨rfl, rfl, rfl, ⟨rfl, rfl, rfl, rfl⟩⟩

/-- Writing a channel touches no slot, no client and no other channel. -/
theorem Untouched.setChannel (n : ChannelId) (x : Channel) (s : State) :
    Untouched (fun _ => False) (fun m => m = n) (fun _ => False) s (s.setChannel n x) where
  part          := by constructor <;> rfl
  slots _ _     := rfl
  channels m hm := (s.channel_setChannel n m x).trans (if_neg hm)
  clients _ _   := rfl

theorem ShedAndFlagsKept.same (h : ShedAndFlagsKept s t) (body : SameBody t u) : ShedAndFlagsKept s u :=
  ⟨body.shed.trans h.shed, body.shedList.trans h.shedList, body.relief.trans h.relief, body.flags.trans h.flags⟩

theorem WasAdmitted.same (h : WasAdmitted j q t) (body : SameBody t u) : WasAdmitted j q u := by
  simpa only [WasAdmitted, body.slot, body.waitQueue, body.admission] using h

/-- The state after the claim, where its change is the write of channel `n`. -/
theorem setChannel_same (n : ChannelId) (x : Channel) (part : SamePart (s.setChannel n x) u)
    (body : SameBody (s.setChannel n x) u) :
    (ListsKept s u ∧ Untouched (fun _ => False) (fun m => m = n) (fun _ => False) s u) ∧ u.channel n = x :=
  ⟨⟨(ListsKept.setChannel n x s).same body, (Untouched.setChannel n x s).same part body⟩,
    (body.channel n).trans (s.channel_setChannel_same n x)⟩

/-! ## The three expiries -/

theorem channelDue_of {k : ChannelTimer} (armed : (s.channel n).timer = some (k, d)) (due : dueAt s.tick d = true) :
    channelDue k n s = true := by
  simp [channelDue, armed, due]

/-- The start of a channel, in the words of the statements (R110, R111). -/
theorem Channel.beginStart_eq (now : Tick) (x : Channel) : x.beginStart now = x.startedAt now := by
  simp [Channel.beginStart, Channel.startedAt, Channel.enter, Channel.sample]

/-- A due discharge expiry starts the channel again where it has live grants, and else switches it OFF (R118). -/
theorem takeDischarge_due (armed : (s.channel n).timer = some (.discharge, d)) (due : dueAt s.tick d = true)
    (stopping : (s.channel n).state = .stopping) :
    takeDischarge n s = s.setChannel n
      (if (s.channel n).live = 0 then { s.channel n with state := .off, timer := none, en := false }
        else (s.channel n).startedAt s.tick) := by
  simp only [takeDischarge, channelDue_of armed due, stopping, decide_true, Bool.and_self, if_true,
    Channel.beginStart_eq]
  rfl

/-- Channel `n` has gone OFF after its cooldown, and nothing has been handed on yet. -/
def cooledDown (n : ChannelId) (s : State) : State :=
  s.setChannel n { s.channel n with state := .off, timer := none, en := false }

/-- A due cooldown expiry switches the channel OFF and triggers a walk (R123). -/
theorem takeCooldown_due (armed : (s.channel n).timer = some (.cooldown, d)) (due : dueAt s.tick d = true)
    (faulted : (s.channel n).state = .faulted) : takeCooldown n s = walk (cooledDown n s) := by
  simp only [takeCooldown, channelDue_of armed due, faulted, decide_true, Bool.and_self, if_true]
  rfl

/-- A due clean expiry clears the fault count (R124). -/
theorem takeClean_due (armed : (s.channel n).timer = some (.clean, d)) (due : dueAt s.tick d = true)
    (on : (s.channel n).state = .on) :
    takeClean n s = s.setChannel n { s.channel n with faultCount := 0, timer := none } := by
  simp only [takeClean, channelDue_of armed due, on, decide_true, Bool.and_self, if_true]

theorem cooledDown_handOff (n : ChannelId) (s : State) : HandOff s (cooledDown n s) :=
  HandOff.setChannel (by constructor <;> rfl)

theorem cooledDown_channel (n m : ChannelId) (s : State) : (cooledDown n s).channel m =
    if m = n then { s.channel n with state := .off, timer := none, en := false } else s.channel m :=
  s.channel_setChannel n m _

/-- The walk of a cooldown expiry leaves the channel OFF, or has started it. -/
theorem walk_cooledDown_channel (n : ChannelId) (s : State) :
    OffOrStartedAt s.tick ((walk (cooledDown n s)).channel n) := by
  refine walk_offOrStarted (s := cooledDown n s) (.inl ?_)
  rw [cooledDown_channel, if_pos rfl]
  exact ⟨rfl, rfl, rfl⟩

/-- A head of the wait queue that fits once the channel has cooled down is taken. -/
theorem visit_cooledDown (hq : (s.slot j).record = some q) (queued : q.isQueued = true)
    (cool : q.channel = n ∨ (s.channel q.channel).state ≠ .faulted)
    (ceiling : (s.channel q.channel).sum + q.amount ≤ (s.channel q.channel).profile.ceiling)
    (room : s.committed + q.amount + (if q.cls = 0 then 0 else s.settings.reserve0) ≤ s.budget) :
    visit j (cooledDown n s) = .take := by
  have fits : q.amount ≤ headroom q.cls (cooledDown n s) := headroom_of_room (s := cooledDown n s) room
  refine visit_of_fits (s := cooledDown n s) hq queued ?_ ?_ fits <;> rw [cooledDown_channel] <;> split
  · simp
  · next other => exact cool.resolve_left other
  · next same => rwa [← same]
  · exact ceiling

/-- What a cooldown expiry leaves, and the walk with it. -/
theorem walk_cooledDown_kept (n : ChannelId) (s : State) :
    HandOff s (walk (cooledDown n s)) ∧ ShedAndFlagsKept s (walk (cooledDown n s)) := by
  have walked := WalkKeeps.walk (cooledDown n s)
  exact ⟨(cooledDown_handOff n s).trans (walk_handOff _), walked.shed, walked.shedList, walked.relief, walked.flags⟩

/-- Settles O53: each expiry is the write of its channel, and a cooldown expiry is followed by a walk. -/
theorem channelTimersExpire : Obligations.ChannelTimersExpire := by
  intro n d s settled due x only
  refine ⟨fun armed stopping => ?discharge, fun armed faulted => ?cooldown, fun armed on => ?clean⟩
  case discharge =>
    exact happens_of (claimWhen_arises _ s (channelDue_of armed due)) settled (takeDischarge_due armed due stopping)
      ⟨rfl, rfl, rfl⟩ fun u part body => setChannel_same n _ part body
  case cooldown =>
    obtain ⟨handed, shed⟩ := walk_cooledDown_kept n s
    refine happens_of (claimWhen_arises _ s (channelDue_of armed due)) settled (takeCooldown_due armed due faulted)
      handed.ports fun u part body => ⟨handed.frame.same part body, handed.holdings.same body, shed.same body, ?_,
        fun still => ?_, fun j q rest run idle head hq queued cool ceiling room => ?_⟩
    · have either := walk_cooledDown_channel n s
      have profile := (handed.frame.same part body).channels n id |>.profile
      rwa [OffOrStartedAt, ← body.channel, profile] at either
    · have nothing : walk (cooledDown n s) = cooledDown n s :=
        walk_idle (still.imp_right (.imp_right fun empty j hj => by simp [cooledDown, empty] at hj))
      rw [nothing] at part body
      exact setChannel_same n _ part body
    · have taken := visit_cooledDown hq queued cool ceiling room
      obtain ⟨admitted, started⟩ := walk_admits_head (s := cooledDown n s) run idle head hq taken
      refine ⟨admitted.same body, fun here first => ?_⟩
      subst here
      rw [body.channel]
      rw [cooledDown_channel, if_pos rfl] at started
      exact started rfl first
  case clean =>
    refine ⟨takeClean n s, rfl, ?_⟩
    rw [takeClean_due armed due on]
    exact ⟨⟨rfl, rfl, rfl⟩, ⟨ListsKept.setChannel .., Untouched.setChannel ..⟩, s.channel_setChannel_same n _⟩

end Sys2Proof.Machine
end

section
/-! PROOF. O51: what a fault of a channel leaves (R114, R119, R120, R121). The fault writes its channel, retires the
records that end with it, one by one in an order left free, and then hands on. The hand-offs leave the channel and its
records alone: a queue walk passes over every record that waits for a FAULTED channel, and for a LOCKED one none
waits any more. -/

namespace Sys2Proof.Machine

variable {s t u : State} {i j : SlotId} {n m : ChannelId} {r : Record} {x y z : Channel} {cause : Cause}
  {l : List SlotId}

/-! ## What an evaluation keeps of a record that is not live -/

/-- What every posting of REDUCE keeps, the choice of victims keeps (R83). -/
theorem chooseVictims_keeps {P : State → Prop} (hs : P s) (step : ∀ i required t, P t → P (postReduce i required t)) :
    P (chooseVictims l s) := by
  induction l generalizing s with
  | nil => exact hs
  | cons i rest ih =>
    unfold chooseVictims
    split
    · exact hs
    split
    · exact ih (step i _ s hs)
    · exact ih hs

/-- What every withdrawal of a notice keeps, the withdrawals of an evaluation keep (R85). -/
theorem withdrawFrom_keeps {P : State → Prop} (hs : P s)
    (step : ∀ i r t, (t.slot i).record = some r → r.notice?.isSome = true → P t → P (withdrawNotice i t)) :
    P (withdrawFrom l s) := by
  induction l generalizing s with
  | nil => exact hs
  | cons i rest ih =>
    unfold withdrawFrom
    split
    next r hr =>
      split
      next notice noticed =>
        split
        · exact ih (step i r s hr (by simp [noticed]) hs)
        · exact ih hs
      · exact ih hs
    · exact ih hs

theorem post_flags (i : SlotId) (kind : NoticeKind) (s : State) : (post i kind s).flags = s.flags := by
  unfold post
  split <;> rfl

theorem postReduce_flags (i : SlotId) (required : Nat) (s : State) : (postReduce i required s).flags = s.flags := by
  unfold postReduce
  split
  · split
    · exact post_flags _ _ _
    · rfl
  · rfl

theorem withdrawNotice_flags (i : SlotId) (s : State) : (withdrawNotice i s).flags = s.flags := by
  refine (post_flags _ _ _).trans ?_
  unfold endNotice
  split
  · split <;> rfl
  · rfl

/-- A record that is not live is asked for nothing (R83). -/
theorem postReduce_slot_of_not_live (required : Nat) (hr : (s.slot j).record = some r) (idle : r.isLive = false)
    (i : SlotId) : (postReduce i required s).slot j = s.slot j := by
  by_cases other : j = i
  · subst other
    unfold postReduce
    simp only [hr]
    split
    · next live => simp [Record.isLive, live] at idle
    · rfl
  · exact postReduce_slot_other required s other

theorem withdrawNotice_slot_other (s : State) (other : j ≠ i) : (withdrawNotice i s).slot j = s.slot j := by
  refine (post_slot_other _ _ other).trans ?_
  unfold endNotice
  split
  · split
    · exact s.slot_setRecord_other _ other
    · rfl
  · rfl

theorem Record.isLive_of_notice (h : r.notice?.isSome = true) : r.isLive = true := by
  obtain ⟨notice, noticed⟩ := Option.isSome_iff_exists.1 h
  obtain ⟨p, lease, live⟩ := Record.phase_of_notice noticed
  rw [Record.isLive, live]

/-- The postings and withdrawals of an evaluation leave a record that is not live. -/
theorem weigh_slot_of_not_live (hr : (s.slot j).record = some r) (idle : r.isLive = false) :
    (weigh s).slot j = s.slot j := by
  unfold weigh
  split
  · refine chooseVictims_keeps (P := fun t => t.slot j = s.slot j) rfl fun i required t same => ?_
    exact (postReduce_slot_of_not_live required (same ▸ hr) idle i).trans same
  · refine withdrawFrom_keeps (P := fun t => t.slot j = s.slot j) rfl fun i r' t hr' noticed same => ?_
    have other : j ≠ i := by
      rintro rfl
      obtain rfl : r = r' := Option.some.inj (hr.symm.trans (same ▸ hr'))
      simp [Record.isLive_of_notice noticed] at idle
    exact (withdrawNotice_slot_other t other).trans same

theorem weigh_flags (s : State) : (weigh s).flags = s.flags := by
  unfold weigh
  split
  · exact chooseVictims_keeps (P := fun t => t.flags = s.flags) rfl fun _ _ _ h => (postReduce_flags _ _ _).trans h
  · exact withdrawFrom_keeps (P := fun t => t.flags = s.flags) rfl fun _ _ _ _ _ h =>
      (withdrawNotice_flags _ _).trans h

/-- An evaluation raises SHED_BEGUN and STRAINED at most, and never CHANNEL_LOCKED (R87). -/
theorem evaluate_channelLocked (s : State) : (evaluate s).flags.getLsbD 4 = s.flags.getLsbD 4 := by
  rw [← weigh_flags s]
  unfold evaluate
  dsimp only
  split <;> split <;> simp [EventFlag.mask, EventFlag.bit]

/-! ## A channel that a hand-off admits nothing to -/

/-- What the hand-offs of a claim leave of channel `n` where nothing is admitted to it: the channel, its records that
are not live, with their places in the wait queue, and the flag CHANNEL_LOCKED. -/
structure Spares (n : ChannelId) (s t : State) : Prop where
  channel : t.channel n = s.channel n
  records : ∀ j r, (s.slot j).record = some r → r.channel = n → r.isLive = false →
    t.slot j = s.slot j ∧ (j ∈ s.waitQueue → j ∈ t.waitQueue)
  locked  : t.flags.getLsbD 4 = s.flags.getLsbD 4

theorem Spares.refl (n : ChannelId) (s : State) : Spares n s s := ⟨rfl, fun _ _ _ _ _ => ⟨rfl, id⟩, rfl⟩

theorem Spares.trans (a : Spares n s t) (b : Spares n t u) : Spares n s u where
  channel := b.channel.trans a.channel
  records j r hr here idle := by
    obtain ⟨same, waits⟩ := a.records j r hr here idle
    obtain ⟨same', waits'⟩ := b.records j r (same ▸ hr) here idle
    exact ⟨same'.trans same, waits' ∘ waits⟩
  locked := b.locked.trans a.locked

theorem Spares.evaluate (n : ChannelId) (s : State) : Spares n s (Machine.evaluate s) where
  channel := (evaluate_keeps s).channel n
  records j r hr _ idle := by
    refine ⟨?_, fun waits => (evaluate_keeps s).waitQueue ▸ waits⟩
    rw [evaluate_eq_weigh]
    exact weigh_slot_of_not_live hr idle
  locked := evaluate_channelLocked s

/-- An admission to another channel. -/
theorem Spares.admitQueued (hr : (s.slot i).record = some r) (other : r.channel ≠ n) :
    Spares n s (Machine.admitQueued i s) where
  channel := (admitQueued_channel hr n).trans (if_neg other.symm)
  records j r' hr' here _ := by
    have apart : j ≠ i := by
      rintro rfl
      obtain rfl : r' = r := Option.some.inj (hr'.symm.trans hr)
      exact other here
    refine ⟨admitQueued_slot_other s apart, fun waits => ?_⟩
    rw [admitQueued_waitQueue hr, mem_without]
    exact ⟨waits, apart⟩
  locked := by rw [(WalkKeeps.admitQueued i s).flags]

/-- A record that waits for channel `n` waits for it to cool down: none can be admitted (R69). -/
def NoneJoins (n : ChannelId) (s : State) : Prop :=
  ∀ j r, (s.slot j).record = some r → r.isQueued = true → r.channel = n → (s.channel n).state = .faulted

theorem Record.phase_of_queued (queued : r.isQueued = true) : ∃ w, r.phase = .queued w := by
  unfold Record.isQueued at queued
  split at queued
  · next w waits => exact ⟨w, waits⟩
  · cases queued

theorem Record.not_live_of_queued (queued : r.isQueued = true) : r.isLive = false := by
  obtain ⟨w, waits⟩ := Record.phase_of_queued queued
  rw [Record.isLive, waits]

/-- A record that is QUEUED after a hand-off was QUEUED before it, for the same channel. -/
theorem HandOff.queued_before (h : HandOff s t) (hr : (t.slot j).record = some r) (queued : r.isQueued = true) :
    ∃ r', (s.slot j).record = some r' ∧ r'.isQueued = true ∧ r'.channel = r.channel := by
  have moved := h.frame.slots j id
  cases before : (s.slot j).record with
  | none => simp [moved.free before] at hr
  | some r' =>
    obtain ⟨r'', hr'', grant, moves, -⟩ := moved.record r' before
    obtain rfl : r'' = r := Option.some.inj (hr''.symm.trans hr)
    refine ⟨r', rfl, ?_, grant.channel.symm⟩
    obtain ⟨w, waits⟩ := Record.phase_of_queued queued
    rw [waits] at moves
    cases e : r'.phase with
    | queued w' => rw [Record.isQueued, e]
    | live powered lease notice => simp [e, Phase.moves] at moves
    | retired reason => simp [e, Phase.moves] at moves

theorem NoneJoins.handOff (h : NoneJoins n s) (handed : HandOff s t) (same : t.channel n = s.channel n) :
    NoneJoins n t := by
  intro j r hr queued here
  obtain ⟨r', hr', queued', here'⟩ := handed.queued_before hr queued
  rw [same]
  exact h j r' hr' queued' (here'.trans here)

/-- A walk spares a channel that none can join. -/
theorem Spares.walk (h : NoneJoins n s) : Spares n s (Machine.walk s) := by
  refine (walk_keeps (P := fun t => NoneJoins n t ∧ Spares n s t) ⟨h, .refl n s⟩ ?_).2
  rintro i t taken ⟨none, spared⟩
  obtain ⟨r, hr, queued, cool, -⟩ := visit_take taken
  have other : r.channel ≠ n := fun here => cool (here ▸ none i r hr queued here)
  have step : Spares n t (Machine.admitQueued i t) := .admitQueued hr other
  exact ⟨none.handOff (admitQueued_handOff hr queued) step.channel, spared.trans step⟩

/-- The hand-offs of a claim spare a channel that none can join (R20). -/
theorem Spares.handOn (e w : Bool) (h : NoneJoins n s) : Spares n s (Machine.handOn e w s) := by
  have evaluated : Spares n s (if e then Machine.evaluate s else s) ∧
      NoneJoins n (if e then Machine.evaluate s else s) := by
    split
    · exact ⟨.evaluate n s, h.handOff (evaluate_handOff s) ((evaluate_keeps s).channel n)⟩
    · exact ⟨.refl n s, h⟩
  obtain same | walked := handOn_cases e w s
  · rw [same]
    exact evaluated.1
  · rw [walked]
    exact evaluated.1.trans (.walk evaluated.2)

/-! ## One retirement (R13) -/

/-- Two channels that differ in the sum and the two counts of the grant table alone. -/
def OnlyCounts (x y : Channel) : Prop := y = { x with sum := y.sum, live := y.live, queued := y.queued }

theorem OnlyCounts.refl (x : Channel) : OnlyCounts x x := rfl

theorem OnlyCounts.trans (a : OnlyCounts x y) (b : OnlyCounts y z) : OnlyCounts x z := by
  rw [OnlyCounts] at a b ⊢
  rw [a] at b
  exact b

/-- The tombstone of a record (R13). -/
def Record.tombstone (reason : Reason) (r : Record) : Record :=
  { r with phase := .retired reason, kinds := { retired := true } }

theorem detach_channel (i : SlotId) (r : Record) (s : State) (m : ChannelId) :
    OnlyCounts (s.channel m) ((detach i r s).channel m) := by
  unfold detach
  split
  · unfold leaveQueued
    rw [State.channel_setClient, State.channel_setChannel]
    split
    · next here => subst here; rfl
    · rfl
  · unfold leaveLive
    rw [State.channel_setClient, State.channel_setChannel]
    split
    · next here => subst here; rfl
    · rfl
  · rfl

theorem detach_flags (i : SlotId) (r : Record) (s : State) : (detach i r s).flags = s.flags := by
  unfold detach
  split <;> rfl

theorem mem_detach_waitQueue (r : Record) (s : State) (other : j ≠ i) (waits : j ∈ s.waitQueue) :
    j ∈ (detach i r s).waitQueue := by
  unfold detach
  split
  · exact mem_without.2 ⟨waits, other⟩
  · exact waits
  · exact waits

theorem retireRecord_channel (i : SlotId) (r : Record) (reason : Reason) (s : State) (m : ChannelId) :
    OnlyCounts (s.channel m) ((retireRecord i r reason s).channel m) := by
  unfold retireRecord
  rw [(EvaluationKeeps.post _ _ _).channel, State.channel_setRecord]
  exact detach_channel i r s m

theorem retireRecord_flags (i : SlotId) (r : Record) (reason : Reason) (s : State) :
    (retireRecord i r reason s).flags = s.flags :=
  (post_flags _ _ _).trans (detach_flags i r s)

theorem mem_retireRecord_waitQueue (r : Record) (reason : Reason) (s : State) (other : j ≠ i)
    (waits : j ∈ s.waitQueue) : j ∈ (retireRecord i r reason s).waitQueue := by
  unfold retireRecord
  rw [(EvaluationKeeps.post _ _ _).waitQueue]
  exact mem_detach_waitQueue r s other waits

theorem retireRecord_slot_other (r : Record) (reason : Reason) (s : State) (other : j ≠ i) :
    (retireRecord i r reason s).slot j = s.slot j := by
  unfold retireRecord
  rw [post_slot_other _ _ other, State.slot_setRecord_other _ _ other, detach_slot]

theorem retireRecord_slot_same (i : SlotId) (r : Record) (reason : Reason) (s : State) :
    (retireRecord i r reason s).slot i = { gen := (s.slot i).gen, record := some (r.tombstone reason) } := by
  unfold retireRecord
  rw [post_slot_same (r := { r with phase := .retired reason }) _ (by rw [State.slot_setRecord_same]),
    State.slot_setRecord_same, detach_slot]
  rfl

theorem retireRecord_frame {f : SlotId → Prop} {g : ChannelId → Prop} (r : Record) (reason : Reason)
    (h : GrantFrame f g s t) (hi : f i) : GrantFrame f g s (retireRecord i r reason t) := by
  unfold retireRecord post
  have buried := (detach_frame i r h).setRecord { r with phase := .retired reason } hi
  split
  · exact GrantFrame.setClient (buried.setRecord _ hi) (by constructor <;> rfl)
  · exact buried

/-! ## The retirements of a fault -/

/-- Retire the records of several slots, each with the reason that a fault gives it (R121). -/
def retireFaulted (l : List SlotId) (s : State) : State :=
  overRecords (fun i r => retireRecord i r (faultReason r)) l s

theorem retireFaulted_channel (l : List SlotId) (s : State) (m : ChannelId) :
    OnlyCounts (s.channel m) ((retireFaulted l s).channel m) :=
  overRecords_keeps (P := fun t => OnlyCounts (s.channel m) (t.channel m)) (.refl _) fun i r t _ _ h =>
    h.trans (retireRecord_channel i r _ t m)

theorem retireFaulted_flags (l : List SlotId) (s : State) : (retireFaulted l s).flags = s.flags :=
  overRecords_keeps (P := fun t => t.flags = s.flags) rfl fun i r t _ _ h => (retireRecord_flags i r _ t).trans h

theorem retireFaulted_ports (l : List SlotId) (s : State) : SamePorts s (retireFaulted l s) :=
  overRecords_keeps (P := SamePorts s) (.refl s) fun i r t _ _ h => h.trans (retireRecord_ports i r _ t)

theorem retireFaulted_frame {f : SlotId → Prop} {g : ChannelId → Prop} (h : GrantFrame f g s t)
    (hl : ∀ i ∈ l, f i) : GrantFrame f g s (retireFaulted l t) :=
  overRecords_keeps (P := GrantFrame f g s) h fun i r _ hi _ h => retireRecord_frame r _ h (hl i hi)

/-- A slot that is not in the list stays, and keeps its place in the wait queue. -/
theorem retireFaulted_other (s : State) (out : j ∉ l) :
    (retireFaulted l s).slot j = s.slot j ∧ (j ∈ s.waitQueue → j ∈ (retireFaulted l s).waitQueue) := by
  refine overRecords_keeps (P := fun t => t.slot j = s.slot j ∧ (j ∈ s.waitQueue → j ∈ t.waitQueue)) ⟨rfl, id⟩ ?_
  rintro i r t hi - ⟨same, waits⟩
  have other : j ≠ i := fun e => out (e ▸ hi)
  exact ⟨(retireRecord_slot_other r _ t other).trans same, mem_retireRecord_waitQueue r _ t other ∘ waits⟩

/-- A slot of the list holds the tombstone of its record. -/
theorem retireFaulted_slot (nodup : l.Nodup) (hj : j ∈ l) (hr : (s.slot j).record = some r) :
    (retireFaulted l s).slot j =
      { gen := (s.slot j).gen, record := some (r.tombstone (faultReason r)) } := by
  induction l generalizing s with
  | nil => cases hj
  | cons i rest ih =>
    obtain ⟨once, nodup⟩ := List.nodup_cons.1 nodup
    unfold retireFaulted overRecords
    by_cases here : j = i
    · subst here
      simp only [hr]
      exact (retireFaulted_other _ once).1.trans (retireRecord_slot_same j r _ s)
    · have later := (List.mem_cons.1 hj).resolve_left here
      split
      next r' hr' =>
        have same := retireRecord_slot_other r' (faultReason r') s here
        exact (ih nodup later (same.symm ▸ hr)).trans (by rw [same])
      · exact ih nodup later hr

/-! ## A fault before its hand-offs (R120, R121) -/

/-- The fault count after a fault. -/
def Channel.countedFault (x : Channel) : Nat := min 7 (x.faultCount + 1)

/-- The next fault of the channel locks it. -/
def Channel.locks (x : Channel) : Bool := decide (x.profile.lockout ≤ x.countedFault)

/-- The channel after a fault that is taken at `now`, with its sums and counts still as they were. -/
def Channel.faultedAt (now : Tick) (cause : Cause) (x : Channel) : Channel :=
  { x with faultCount := x.countedFault, cause := cause, en := false,
           state := if x.locks then .locked else .faulted,
           timer := if x.locks then none else some (.cooldown, now + BitVec.ofNat 32 x.profile.cooldown) }

/-- A record that ends with a fault of channel `n`. -/
def Record.endsWith (n : ChannelId) (locks : Bool) (r : Record) : Bool :=
  decide (r.channel = n) && (r.isLive || (locks && r.isQueued))

/-- The slots whose records end with a fault of channel `n`. -/
def faultEnds (n : ChannelId) (s : State) : List SlotId := slotsWhere (Record.endsWith n (s.channel n).locks) s

/-- The fault has been written to its channel and to the event flags. -/
def faultEntered (n : ChannelId) (cause : Cause) (s : State) : State :=
  let t := raise .channelFault (s.setChannel n ((s.channel n).faultedAt s.tick cause))
  if (s.channel n).locks then raise .channelLocked t else t

/-- The records that end with the fault have been retired, and nothing has been handed on yet. -/
def faultRetired (n : ChannelId) (cause : Cause) (s : State) : State :=
  nextOrder (retireFaulted (openOrder (faultEnds n s) s) (faultEntered n cause s))

/-- A fault writes its channel, retires the records that end with it, and hands on. -/
theorem fault_eq (n : ChannelId) (cause : Cause) (s : State) :
    fault n cause s = handOnChange (endings (recordsOf (faultEnds n s) s)) (faultRetired n cause s) := by
  unfold fault faultRetired faultEntered faultEnds
  cases locks : (s.channel n).locks
  all_goals
    have decided := locks
    rw [Channel.locks, Channel.countedFault] at decided
    simp only [decided, Channel.faultedAt, locks]
    rfl

theorem faultEntered_cases (n : ChannelId) (cause : Cause) (s : State) :
    (s.channel n).locks = true ∧ faultEntered n cause s =
      raise .channelLocked (raise .channelFault (s.setChannel n ((s.channel n).faultedAt s.tick cause))) ∨
    (s.channel n).locks = false ∧ faultEntered n cause s =
      raise .channelFault (s.setChannel n ((s.channel n).faultedAt s.tick cause)) := by
  unfold faultEntered
  cases (s.channel n).locks
  · exact .inr ⟨rfl, rfl⟩
  · exact .inl ⟨rfl, rfl⟩

/-- Entering the fault changes no slot, no list and no port. -/
theorem faultEntered_kept (n : ChannelId) (cause : Cause) (s : State) :
    (∀ j, (faultEntered n cause s).slot j = s.slot j) ∧ (faultEntered n cause s).waitQueue = s.waitQueue ∧
      SamePorts s (faultEntered n cause s) := by
  obtain ⟨-, e⟩ | ⟨-, e⟩ := faultEntered_cases n cause s <;> rw [e] <;>
    exact ⟨fun _ => rfl, rfl, rfl, rfl, rfl⟩

theorem faultEntered_channel (n : ChannelId) (cause : Cause) (s : State) :
    (faultEntered n cause s).channel n = (s.channel n).faultedAt s.tick cause := by
  obtain ⟨-, e⟩ | ⟨-, e⟩ := faultEntered_cases n cause s <;> rw [e] <;> exact s.channel_setChannel_same n _

theorem faultEntered_frame (f : SlotId → Prop) (n : ChannelId) (cause : Cause) (s : State) :
    GrantFrame f (fun m => m = n) s (faultEntered n cause s) := by
  have written : GrantFrame f (fun m => m = n) s (s.setChannel n ((s.channel n).faultedAt s.tick cause)) :=
    (GrantFrame.refl f _ s).setChannel fun other => absurd rfl other
  obtain ⟨-, e⟩ | ⟨-, e⟩ := faultEntered_cases n cause s <;> rw [e]
  · exact (written.raise _).raise _
  · exact written.raise _

theorem faultEntered_channelFault (n : ChannelId) (cause : Cause) (s : State) :
    (faultEntered n cause s).flags.getLsbD 3 = true := by
  obtain ⟨-, e⟩ | ⟨-, e⟩ := faultEntered_cases n cause s <;> rw [e] <;> simp [EventFlag.mask, EventFlag.bit]

/-- A fault raises CHANNEL_LOCKED exactly where it locks the channel. -/
theorem faultEntered_channelLocked (n : ChannelId) (cause : Cause) (s : State) :
    (faultEntered n cause s).flags.getLsbD 4 = ((s.channel n).locks || s.flags.getLsbD 4) := by
  obtain ⟨locks, e⟩ | ⟨locks, e⟩ := faultEntered_cases n cause s <;> rw [e, locks] <;>
    simp [EventFlag.mask, EventFlag.bit]

theorem mem_faultEnds : j ∈ faultEnds n s ↔
    ∃ r, (s.slot j).record = some r ∧ r.channel = n ∧
      (r.isLive = true ∨ ((s.channel n).locks = true ∧ r.isQueued = true)) := by
  simp [faultEnds, Record.endsWith, Option.any_eq_true]

theorem faultRetired_channel (n : ChannelId) (cause : Cause) (s : State) :
    OnlyCounts ((s.channel n).faultedAt s.tick cause) ((faultRetired n cause s).channel n) := by
  have retired := retireFaulted_channel (openOrder (faultEnds n s) s) (faultEntered n cause s) n
  rwa [faultEntered_channel] at retired

/-- A record that ends with the fault is a tombstone. -/
theorem faultRetired_slot (cause : Cause) (hj : j ∈ faultEnds n s) (hr : (s.slot j).record = some r) :
    (faultRetired n cause s).slot j =
      { gen := (s.slot j).gen, record := some (r.tombstone (faultReason r)) } := by
  have entered := (faultEntered_kept n cause s).1 j
  have nodup : (openOrder (faultEnds n s) s).Nodup := (openOrder_perm _ s).nodup_iff.2 (slotsWhere_nodup _ s)
  rw [← entered] at hr ⊢
  exact retireFaulted_slot nodup (mem_openOrder.2 hj) hr

/-- A record that does not end with the fault stays, and keeps its place in the wait queue. -/
theorem faultRetired_other (cause : Cause) (out : j ∉ faultEnds n s) :
    (faultRetired n cause s).slot j = s.slot j ∧ (j ∈ s.waitQueue → j ∈ (faultRetired n cause s).waitQueue) := by
  obtain ⟨slots, waitQueue, -⟩ := faultEntered_kept n cause s
  obtain ⟨same, waits⟩ := retireFaulted_other (faultEntered n cause s) (mt mem_openOrder.1 out)
  exact ⟨same.trans (slots j), fun h => waits (waitQueue.symm ▸ h)⟩

/-- After the retirements nothing can join the channel: it is FAULTED, or LOCKED with nothing waiting for it. -/
theorem faultRetired_noneJoins (n : ChannelId) (cause : Cause) (s : State) : NoneJoins n (faultRetired n cause s) := by
  intro j r hr queued here
  rw [faultRetired_channel n cause s]
  cases locks : (s.channel n).locks with
  | false => simp [Channel.faultedAt, locks]
  | true =>
    by_cases ends : j ∈ faultEnds n s
    · obtain ⟨r', hr', -⟩ := mem_faultEnds.1 ends
      rw [faultRetired_slot cause ends hr'] at hr
      obtain rfl := Option.some.inj hr
      simp [Record.tombstone, Record.isQueued] at queued
    · rw [(faultRetired_other cause ends).1] at hr
      exact absurd (mem_faultEnds.2 ⟨r, hr, here, .inr ⟨locks, queued⟩⟩) ends

/-! ## A fault with its hand-offs -/

theorem fault_handOff (n : ChannelId) (cause : Cause) (s : State) :
    HandOff (faultRetired n cause s) (fault n cause s) := by
  rw [fault_eq]
  exact handOnChange_handOff _ _

theorem fault_spares (n : ChannelId) (cause : Cause) (s : State) :
    Spares n (faultRetired n cause s) (fault n cause s) := by
  rw [fault_eq]
  exact .handOn _ _ (faultRetired_noneJoins n cause s)

theorem fault_ports (n : ChannelId) (cause : Cause) (s : State) : SamePorts s (fault n cause s) := by
  have entered := (faultEntered_kept n cause s).2.2
  have retired : SamePorts (faultEntered n cause s) (faultRetired n cause s) :=
    (retireFaulted_ports _ _).trans ⟨rfl, rfl, rfl⟩
  exact (entered.trans retired).trans (fault_handOff n cause s).ports

theorem fault_channel (n : ChannelId) (cause : Cause) (s : State) :
    OnlyCounts ((s.channel n).faultedAt s.tick cause) ((fault n cause s).channel n) := by
  rw [(fault_spares n cause s).channel]
  exact faultRetired_channel n cause s

/-- A record that ends with the fault is a tombstone after the claim. -/
theorem fault_slot (cause : Cause) (hj : j ∈ faultEnds n s) (hr : (s.slot j).record = some r) :
    (fault n cause s).slot j = { gen := (s.slot j).gen, record := some (r.tombstone (faultReason r)) } := by
  have retired := faultRetired_slot cause hj hr
  have spent : Spent j (faultRetired n cause s) := by
    intro r' hr'
    rw [retired] at hr'
    obtain rfl := Option.some.inj hr'
    rfl
  exact ((fault_handOff n cause s).slot_of_spent spent).trans retired

/-- A record that waits for a channel that the fault does not lock waits on. -/
theorem fault_waits (cause : Cause) (hr : (s.slot j).record = some r) (here : r.channel = n)
    (queued : r.isQueued = true) (unlocked : (s.channel n).locks = false) :
    (fault n cause s).slot j = s.slot j ∧ (j ∈ s.waitQueue → j ∈ (fault n cause s).waitQueue) := by
  have idle := Record.not_live_of_queued queued
  have out : j ∉ faultEnds n s := by
    rw [mem_faultEnds]
    rintro ⟨r', hr', -, ends⟩
    obtain rfl := Option.some.inj (hr.symm.trans hr')
    simp [idle, unlocked] at ends
  obtain ⟨same, waits⟩ := faultRetired_other cause out
  obtain ⟨same', waits'⟩ := (fault_spares n cause s).records j r (same.symm ▸ hr) here idle
  exact ⟨same'.trans same, waits' ∘ waits⟩

theorem fault_frame (n : ChannelId) (cause : Cause) (s : State) :
    GrantFrame (fun j => ∃ r, (s.slot j).record = some r ∧ r.channel = n) (fun m => m = n) s (fault n cause s) := by
  have retired := retireFaulted_frame (l := openOrder (faultEnds n s) s)
    (faultEntered_frame (fun j => ∃ r, (s.slot j).record = some r ∧ r.channel = n) n cause s) fun j hj => by
      obtain ⟨r, hr, here, -⟩ := mem_faultEnds.1 (mem_openOrder.1 hj)
      exact ⟨r, hr, here⟩
  exact (retired.same (by constructor <;> rfl) (by constructor <;> rfl)).handOff (fault_handOff n cause s)

theorem fault_channelFault (n : ChannelId) (cause : Cause) (s : State) :
    (fault n cause s).flags.getLsbD 3 = true := by
  refine (fault_handOff n cause s).frame.flags 3 ?_
  rw [faultRetired, nextOrder_flags, retireFaulted_flags]
  exact faultEntered_channelFault n cause s

theorem fault_channelLocked (n : ChannelId) (cause : Cause) (s : State) :
    (fault n cause s).flags.getLsbD 4 = ((s.channel n).locks || s.flags.getLsbD 4) := by
  rw [(fault_spares n cause s).locked, faultRetired, nextOrder_flags, retireFaulted_flags]
  exact faultEntered_channelLocked n cause s

/-! ## The four ways to a fault -/

/-- Channel `n`, as the fault finds it: its line has moved, or its sampled event is no longer waiting. -/
def lineMoved (n : ChannelId) (i : Instr) (sampled : Option SampledEvent) (x : Channel) : Channel :=
  { x with pg := x.pg && decide (i ≠ .powerLoss n), fltN := x.fltN && decide (i ≠ .trip n), sampled := sampled }

/-- Writing a channel as it is changes nothing. -/
theorem State.setChannel_self (n : ChannelId) (s : State) : s.setChannel n (s.channel n) = s := by
  simp [State.setChannel, State.channel]

/-- Each way to a fault is a claim that takes the fault (R114, R119). -/
theorem claims_fault {i : Instr} (way :
    (i = .trip n ∧ cause = .trip ∧ (s.channel n).state.drives = true) ∨
    (i = .powerLoss n ∧ cause = .powerLost ∧ (s.channel n).state = .on) ∨
    (i = .startTimeout n ∧ cause = .startTimeout ∧ (s.channel n).state = .starting ∧
      ∃ d, (s.channel n).timer = some (.start, d) ∧ dueAt s.tick d = true) ∨
    (i = .sampledLineEvent n ∧ cause = .trip ∧ (s.channel n).state.drives = true ∧
      (s.channel n).sampled = some .trip)) :
    ∃ f sampled, exec i s = claim f s ∧
      f s = fault n cause (s.setChannel n (lineMoved n i sampled (s.channel n))) := by
  obtain ⟨rfl, rfl, drives⟩ | ⟨rfl, rfl, on⟩ | ⟨rfl, rfl, starting, d, armed, due⟩ | ⟨rfl, rfl, drives, waits⟩ := way
  · refine ⟨_, (s.channel n).sampled, if_pos drives, ?_⟩
    simp [faultIn, setFlt, drives, lineMoved]
  · refine ⟨_, (s.channel n).sampled, if_pos (decide_eq_true on), ?_⟩
    simp [faultIn, setPg, on, lineMoved]
  · refine ⟨_, (s.channel n).sampled, claimWhen_arises _ s (channelDue_of armed due), ?_⟩
    have still : lineMoved n (.startTimeout n) (s.channel n).sampled (s.channel n) = s.channel n := by
      simp [lineMoved]
    simp only [still, State.setChannel_self, takeStart, channelDue_of armed due, starting, decide_true,
      Bool.and_self, if_true]
  · refine ⟨_, none, claimWhen_arises _ s (by rw [waits]; rfl), ?_⟩
    simp [takeSampled, waits, faultIn, drives, lineMoved]

/-- Settles O51: each way to a fault takes the fault on the channel as its line or its sample left it; what is stated of
the channel, its records and the flags is what the retirements leave and the hand-offs spare. -/
theorem faultsEndTheGrants : Obligations.FaultsEndTheGrants := by
  intro n i cause s settled way x count
  obtain ⟨f, sampled, claimed, taken⟩ := claims_fault way
  set y := lineMoved n i sampled (s.channel n)
  set found := s.setChannel n y
  have here : found.channel n = y := s.channel_setChannel_same n y
  have ports : SamePorts s found := ⟨rfl, rfl, rfl⟩
  refine happens_of claimed settled taken (ports.trans (fault_ports n cause found)) fun u part body => ?_
  have entered : OnlyCounts (y.faultedAt s.tick cause) (u.channel n) := by
    rw [body.channel, ← here]
    exact fault_channel n cause found
  have ends : ∀ j r, (s.slot j).record = some r → r.channel = n →
      r.isLive = true ∨ (x.profile.lockout ≤ count ∧ r.isQueued = true) →
      u.slot j = { gen := (s.slot j).gen, record := some (r.tombstone (faultReason r)) } := by
    intro j r hr mine ending
    rw [body.slot]
    refine fault_slot cause (mem_faultEnds.2 ⟨r, hr, mine, ?_⟩) hr
    rw [here]
    exact ending.imp_right (.imp_left fun locked => decide_eq_true locked)
  have locks : y.locks = decide (x.profile.lockout ≤ count) := rfl
  rw [OnlyCounts] at entered
  refine ⟨by rw [entered]; rfl, by rw [entered]; rfl, by rw [entered]; rfl, by rw [entered]; rfl, fun locked => ?_,
    fun free => ?_, by rw [entered]; rfl, by rw [entered]; rfl, fun j r hr mine live => ?_,
    fun j r hr mine queued locked => ?_, fun j r hr mine queued free => ?_, ?_, fun locked => ?_, fun free => ?_, ?_⟩
  · rw [entered, Channel.faultedAt, locks, decide_eq_true locked]
    exact ⟨rfl, rfl⟩
  · rw [entered, Channel.faultedAt, locks, decide_eq_false (not_le.2 free)]
    exact ⟨rfl, rfl⟩
  · have reason : faultReason r = .channelFault := if_pos live
    exact reason ▸ ends j r hr mine (.inl live)
  · have reason : faultReason r = .channelLocked := by simp [faultReason, Record.not_live_of_queued queued]
    exact reason ▸ ends j r hr mine (.inr ⟨locked, queued⟩)
  · rw [body.slot, body.waitQueue]
    exact fault_waits cause hr mine queued (by rw [here, locks, decide_eq_false (not_le.2 free)])
  · rw [body.flags]
    exact fault_channelFault n cause found
  · rw [body.flags, fault_channelLocked, here, locks, decide_eq_true locked, Bool.true_or]
  · rw [body.flags, fault_channelLocked, here, locks, decide_eq_false (not_le.2 free), Bool.false_or]
    rfl
  · have moved : GrantFrame (fun j => ∃ r, (s.slot j).record = some r ∧ r.channel = n) (fun m => m = n) s found :=
      (GrantFrame.refl _ _ s).setChannel fun other => absurd rfl other
    exact (moved.trans (fault_frame n cause found)).same part body

end Sys2Proof.Machine
end

section
/-! PROOF. O37: what OPEN_CLIENT answers and the session it opens (R133). The model's four checks are those of the
statement, in its order, and the one change is the write of the client's entry. -/

namespace Sys2Proof.Machine

variable {s : State} {p : PortId} {c : ClientId} {client : Byte} {quota : Half} {limit best attention : Byte}

/-! ## Writing one client -/

/-- Writing a client's entry leaves the lists, the committed total, the shed engine and the event flags. -/
theorem ListsKept.setClient (d : ClientId) (x : Client) (s : State) : ListsKept s (s.setClient d x) :=
  ⟨rfl, rfl, rfl, ⟨rfl, rfl, rfl, rfl⟩⟩

/-- Writing a client's entry touches no slot, no channel and no other client. -/
theorem Untouched.setClient (d : ClientId) (x : Client) (s : State) :
    Untouched (fun _ => False) (fun _ => False) (fun b => b = d) s (s.setClient d x) where
  part         := by constructor <;> rfl
  slots _ _    := rfl
  channels _ _ := rfl
  clients b hb := (s.client_setClient d b x).trans (if_neg hb)

/-- A command whose action writes the entry `x` of client `d` leaves exactly that entry there, and all else as it
was. -/
theorem takes_setClient {k : Instr} {a : Reply} {f : State → State × Reply} {d : ClientId} {x : Client}
    (hx : exec k s = command p k f s) (settled : s.resetSafe = false) (hf : f s = (s.setClient d x, a)) :
    Takes p k a s fun t =>
      t.client d = x ∧ ListsKept s t ∧ Untouched (fun _ => False) (fun _ => False) (fun b => b = d) s t := by
  have ports : SamePorts s (s.setClient d x) := ⟨rfl, rfl, rfl⟩
  refine takes_of hx settled hf ports fun u part body => ⟨?_, ?_, ?_⟩
  · exact (body.client d).trans (s.client_setClient_same d x)
  · exact (ListsKept.setClient d x s).same body
  · exact (Untouched.setClient d x s).same part body

/-! ## The checks of a supervisor command, in words -/

/-- R131 for a supervisor command. -/
theorem supervisorMaySend_eq (p : PortId) (c : ClientId) :
    supervisorMaySend p c = decide (p = .management ∧ c = 0) := by
  cases p <;> simp [supervisorMaySend]

theorem Mode.notSafe_eq (m : Mode) : m.notSafe = decide (m ≠ .safe) :=
  Bool.eq_iff_iff.2 ((Mode.notSafe_iff m).trans decide_eq_true_iff.symm)

theorem within_eq (lo hi v : Nat) : within lo hi v = decide (lo ≤ v ∧ v ≤ hi) :=
  (Bool.decide_and ..).symm

/-! ## OPEN_CLIENT (R133) -/

/-- The ranges of the client field and of the rights, in the words of the statement. -/
theorem openFieldsOk_eq (client : Byte) (quota : Half) (limit best attention : Byte) :
    (sessionFieldOk client && rightsOk quota limit best attention) =
      decide (1 ≤ client.toNat ∧ client.toNat ≤ 15 ∧ quota.toNat ≤ 20000 ∧ 1 ≤ limit.toNat ∧
        limit.toNat ≤ 16 ∧ best.toNat ≤ 3 ∧ attention.toNat ≤ 1) := by
  simp only [sessionFieldOk, rightsOk, within_eq, ← Bool.decide_and, Nat.zero_le, true_and, and_assoc]

/-- The check order of OPEN_CLIENT, in the words of the statement. -/
def openClientOrder (p : PortId) (c : ClientId) (client : Byte) (quota : Half) (limit best attention : Byte)
    (s : State) : List (Bool × Result) :=
  [(decide (p = .management ∧ c = 0), .denied), (decide (s.mode ≠ .safe), .mode),
    (decide (1 ≤ client.toNat ∧ client.toNat ≤ 15 ∧ quota.toNat ≤ 20000 ∧ 1 ≤ limit.toNat ∧
      limit.toNat ≤ 16 ∧ best.toNat ≤ 3 ∧ attention.toNat ≤ 1), .range),
    (!(s.client (clientOf client)).isOpen, .badState)]

/-- The entry `x` made OPEN with the rights that an OPEN_CLIENT gives. -/
def Client.opened (quota : Half) (limit best attention : Byte) (x : Client) : Client :=
  { x with isOpen := true, quota := quota.toNat, limit := limit.toNat, best := best.toNat,
           attention := decide (attention.toNat = 1) }

/-- OPEN_CLIENT makes the checks of `openClientOrder`, and one that passes writes the entry of its client. -/
theorem openClientAct_eq (p : PortId) (c : ClientId) (client : Byte) (quota : Half) (limit best attention : Byte)
    (s : State) :
    openClientAct p c client quota limit best attention s =
      checked (openClientOrder p c client quota limit best attention)
        (fun s => taken [] (s.setClient (clientOf client)
          ((s.client (clientOf client)).opened quota limit best attention))) s := by
  have checks : openClientOrder p c client quota limit best attention = fun s =>
      [(supervisorMaySend p c, .denied), (s.mode.notSafe, .mode),
        (sessionFieldOk client && rightsOk quota limit best attention, .range),
        (!(s.client (clientOf client)).isOpen, .badState)] := by
    simp only [supervisorMaySend_eq, Mode.notSafe_eq, openFieldsOk_eq]
    rfl
  rw [checks]
  rfl

/-- An OPEN_CLIENT that fails a check answers the result of the first one it fails. -/
theorem openClientAct_refused {e : Result}
    (fails : firstFailure (openClientOrder p c client quota limit best attention s) = some e) :
    openClientAct p c client quota limit best attention s = (s, { result := e }) :=
  (openClientAct_eq ..).trans (checked_of_failure _ fails)

/-- An OPEN_CLIENT that passes makes the entry OPEN with the rights given. -/
theorem openClientAct_ok
    (passes : firstFailure (openClientOrder p c client quota limit best attention s) = none) :
    openClientAct p c client quota limit best attention s =
      (s.setClient (clientOf client) ((s.client (clientOf client)).opened quota limit best attention),
        { result := .ok }) :=
  (openClientAct_eq ..).trans (checked_of_pass _ passes)

/-- Settles O37: a check that fails decides the answer, and where none fails the write of the client's entry is the one
change. -/
theorem openClientOpensTheSession : Obligations.OpenClientOpensTheSession := by
  intro p c client quota limit best attention s settled i d order
  refine ⟨fun e fails => ?_, fun passes => ?_⟩
  · exact refused_only_answers settled rfl (openClientAct_refused fails)
  · exact takes_setClient rfl settled (openClientAct_ok passes)

end Sys2Proof.Machine
end

section
/-! PROOF. O11: the two attention lines stand at their conditions after every step (R144, R145, R158). A row ends in one
of two ways: it brings the lines to their conditions, or it leaves the lines and all that the conditions read as they
were. A reset releases the lines where no condition holds. -/

namespace Sys2Proof.Machine

variable {s t : State} {i : Instr} {pins : Pins}

/-! ## The conditions in words -/

/-- ATTN_N in the words of R144. -/
theorem attnCondition_iff (s : State) : attnCondition s = true ↔
    ∃ c : ClientId, c ≠ 0 ∧ (s.client c).isOpen = true ∧ (s.client c).attention = true ∧
      (s.client c).notices ≠ [] := by
  simp [attnCondition, and_assoc]

/-- A set of flags is not empty exactly where some flag is in it. -/
theorem flags_ne_zero_iff (x : BitVec 7) : x ≠ 0 ↔ ∃ k, x.getLsbD k = true := by
  refine ⟨fun nonzero => ?_, fun ⟨k, bit⟩ zero => by simp [zero] at bit⟩
  by_contra none
  exact nonzero (BitVec.eq_of_getLsbD_eq fun k _ => by simpa using not_exists.1 none k)

/-- ALERT_N in the words of R158, with client 0's share (R145). -/
theorem alertCondition_iff (s : State) : alertCondition s = true ↔
    (∃ k, s.flags.getLsbD k = true ∧ s.settings.eventMask.getLsbD k = true) ∨ (s.client 0).notices ≠ [] := by
  have masked := flags_ne_zero_iff (s.flags &&& s.settings.eventMask)
  simp only [BitVec.getLsbD_and, Bool.and_eq_true] at masked
  rw [alertCondition, Bool.or_eq_true, bne_iff_ne, masked]
  simp

/-- Both lines at their conditions, in the words of the statement. -/
theorem linesDriven_iff (t : State) : LinesDriven t ↔
    (t.attn = true ↔ ∃ c : ClientId, c ≠ 0 ∧ (t.client c).isOpen = true ∧ (t.client c).attention = true ∧
      (t.client c).notices ≠ []) ∧
    (t.alert = true ↔ (∃ k, t.flags.getLsbD k = true ∧ t.settings.eventMask.getLsbD k = true) ∨
      (t.client 0).notices ≠ []) := by
  rw [← attnCondition_iff, ← alertCondition_iff, ← Bool.eq_iff_iff, ← Bool.eq_iff_iff]
  exact ⟨fun h => ⟨h.attn, h.alert⟩, fun ⟨attn, alert⟩ => ⟨attn, alert⟩⟩

/-! ## Rows that leave the lines alone -/

/-- Both lines, and all that their conditions read, are as they were. -/
structure LinesKept (s t : State) : Prop where
  attn     : t.attn = s.attn
  alert    : t.alert = s.alert
  clients  : t.clients = s.clients
  flags    : t.flags = s.flags
  settings : t.settings = s.settings

theorem LinesKept.refl (s : State) : LinesKept s s := ⟨rfl, rfl, rfl, rfl, rfl⟩

theorem LinesKept.trans {u : State} (a : LinesKept s t) (b : LinesKept t u) : LinesKept s u :=
  ⟨b.attn.trans a.attn, b.alert.trans a.alert, b.clients.trans a.clients, b.flags.trans a.flags,
    b.settings.trans a.settings⟩

/-- Lines that stand at their conditions stay there while neither they nor the conditions change. -/
theorem LinesDriven.kept (h : LinesDriven s) (k : LinesKept s t) : LinesDriven t where
  attn  := by simp only [k.attn, h.attn, attnCondition, State.client, k.clients]
  alert := by simp only [k.alert, h.alert, alertCondition, State.client, k.clients, k.flags, k.settings]

theorem LinesKept.setChannel (n : ChannelId) (x : Channel) (s : State) : LinesKept s (s.setChannel n x) :=
  ⟨rfl, rfl, rfl, rfl, rfl⟩

theorem LinesKept.setPg (n : ChannelId) (level : Bool) (s : State) : LinesKept s (Machine.setPg n level s) :=
  .setChannel n _ s

theorem LinesKept.setFlt (n : ChannelId) (level : Bool) (s : State) : LinesKept s (Machine.setFlt n level s) :=
  .setChannel n _ s

theorem LinesKept.setPort (p : PortId) (x : PortUnit) (s : State) : LinesKept s (s.setPort p x) := by
  constructor <;> simp

theorem LinesKept.signal (p : PortId) (bus : Bus) (written : Nat) (out : List Byte) (s : State) :
    LinesKept s (Machine.signal p bus written out s) :=
  .setPort p _ s

theorem LinesKept.takeClean (n : ChannelId) (s : State) : LinesKept s (Machine.takeClean n s) := by
  unfold Machine.takeClean
  dsimp only
  split
  · exact .setChannel n _ s
  · exact .refl s

theorem LinesKept.takeLineChange (v : Tier) (s : State) : LinesKept s (Machine.takeLineChange v s) := by
  unfold Machine.takeLineChange
  dsimp only
  split <;> exact ⟨rfl, rfl, rfl, rfl, rfl⟩

/-! ## Resets -/

/-- Released lines are at their conditions where no notice waits and no flag is set. -/
theorem LinesDriven.of_quiet (quiet : ∀ c, (s.client c).notices = []) (noFlag : s.flags = 0)
    (attn : s.attn = false) (alert : s.alert = false) : LinesDriven s :=
  ⟨by simp [attn, attnCondition, quiet], by simp [alert, alertCondition, quiet, noFlag]⟩

theorem client_reset (c : ClientId) : State.reset.client c = Client.closed := by
  simp [State.client, State.reset]

/-- The lines at the initial state. -/
theorem reset_linesDriven : LinesDriven State.reset :=
  .of_quiet (fun c => by rw [client_reset]; rfl) rfl rfl rfl

/-- A release of reset leaves the lines as the initial state has them: released, with no condition that holds. -/
theorem atRelease_lines (pins : Pins) (s : State) : LinesKept State.reset (atRelease pins s) :=
  ⟨rfl, rfl, rfl, rfl, rfl⟩

theorem atRelease_linesDriven (pins : Pins) (s : State) : LinesDriven (atRelease pins s) :=
  reset_linesDriven.kept (atRelease_lines pins s)

/-- Both resets are the release of reset (R154). -/
theorem exec_reset (reset : i = .powerOn pins ∨ i = .pinReset pins) : exec i s = .next (atRelease pins s) := by
  obtain rfl | rfl := reset <;> rfl

/-! ## How a row ends -/

/-- An outcome that leaves the lines at their conditions, or leaves them and their conditions as they were in `s`. -/
def DrivesOrKeeps (s : State) (o : Out) : Prop := ∀ t, o = .next t → LinesDriven t ∨ LinesKept s t

theorem DrivesOrKeeps.driven (h : LinesDriven t) : DrivesOrKeeps s (.next t) := by
  rintro _ ⟨⟩
  exact .inl h

theorem DrivesOrKeeps.kept (h : LinesKept s t) : DrivesOrKeeps s (.next t) := by
  rintro _ ⟨⟩
  exact .inr h

theorem DrivesOrKeeps.command (p : PortId) (i : Instr) (f : State → State × Reply) (s : State) :
    DrivesOrKeeps s (Machine.command p i f s) :=
  .driven (driveLines_driven _)

theorem DrivesOrKeeps.claim (f : State → State) (s : State) : DrivesOrKeeps s (Machine.claim f s) :=
  .driven (driveLines_driven _)

/-- An event that does not arise changes nothing (R29). -/
theorem DrivesOrKeeps.claimWhen (b : Bool) (f : State → State) (s : State) :
    DrivesOrKeeps s (Machine.claimWhen b f s) := by
  unfold Machine.claimWhen
  split
  · exact .claim f s
  · exact .kept (.refl s)

/-- An ignored change of a switch line moves the level of a channel's pin (R107). -/
theorem DrivesOrKeeps.lineEvent (takes : ChannelState → Bool) {level : State → State} (f : State → State)
    (n : ChannelId) (s : State) (moves : LinesKept s (level s)) :
    DrivesOrKeeps s (Machine.lineEvent takes level f n s) := by
  obtain ⟨-, e⟩ | ⟨-, e⟩ := lineEvent_cases takes level f n s <;> rw [e]
  · exact .claim _ s
  · exact .kept moves

/-- A write that carries bytes can raise PORT_ERROR and drives the lines; one without a byte is no frame (R161). -/
theorem DrivesOrKeeps.execWriteTransaction (bus : Bus) (bytes : List Byte) (s : State) :
    DrivesOrKeeps s (Machine.execWriteTransaction bus bytes s) := by
  unfold Machine.execWriteTransaction
  split
  · exact .kept (.refl s)
  · dsimp only
    split
    · exact .kept (.signal ..)
    · exact .driven (driveLines_driven _)

theorem DrivesOrKeeps.execReadTransaction (bus : Bus) (count : Nat) (s : State) :
    DrivesOrKeeps s (Machine.execReadTransaction bus count s) := by
  unfold Machine.execReadTransaction
  split
  · exact .kept (.refl s)
  · exact .kept ((LinesKept.setPort _ _ s).trans (.signal ..))

theorem DrivesOrKeeps.execDirectionByteRefused (direction : Byte) (count : Nat) (s : State) :
    DrivesOrKeeps s (Machine.execDirectionByteRefused direction count s) := by
  unfold Machine.execDirectionByteRefused
  split
  · exact .kept (.refl s)
  · exact .driven (driveLines_driven _)

theorem DrivesOrKeeps.execResponsePlaced (p : PortId) (s : State) :
    DrivesOrKeeps s (Machine.execResponsePlaced p s) := by
  unfold Machine.execResponsePlaced
  dsimp only
  split
  · exact .kept (.setPort p _ s)
  · exact .kept (.refl s)

/-- Every row drives the lines, or leaves them and their conditions alone. The rows that are not named are the
commands. -/
theorem exec_drivesOrKeeps (i : Instr) (s : State) : DrivesOrKeeps s (exec i s) := by
  cases i with
  | writeTransaction bus bytes => exact .execWriteTransaction bus bytes s
  | readTransaction bus count => exact .execReadTransaction bus count s
  | directionByteRefused direction count => exact .execDirectionByteRefused direction count s
  | responsePlaced p => exact .execResponsePlaced p s
  | tick => exact .driven (driveLines_driven _)
  | leaseExpiry slot | waitExpiry slot | noticeExpiry slot => exact .claimWhen _ _ s
  | startTimeout n | dischargeExpiry n | cooldownExpiry n | sampledLineEvent n => exact .claimWhen _ _ s
  | settleExpiry | resetSafeEntry => exact .claimWhen _ _ s
  | cleanExpiry n => exact .kept (.takeClean n s)
  | lineChange value => exact .kept (.takeLineChange value s)
  | powerGood n => exact .lineEvent (fun st => decide (st = .starting)) _ n s (.setPg n true s)
  | powerLoss n => exact .lineEvent (fun st => decide (st = .on)) _ n s (.setPg n false s)
  | trip n => exact .lineEvent ChannelState.drives _ n s (.setFlt n false s)
  | fltRise n => exact .kept (.setFlt n true s)
  | safeNFall => exact .claim _ s
  | safeNRise => exact .kept ⟨rfl, rfl, rfl, rfl, rfl⟩
  | powerOn pins | pinReset pins => exact .driven (atRelease_linesDriven pins s)
  | _ => exact .command _ _ _ s

theorem exec_linesDriven (h : LinesDriven s) (next : exec i s = .next t) : LinesDriven t :=
  (exec_drivesOrKeeps i s t next).elim id h.kept

/-- A step keeps the lines at their conditions; the sender's queue is no part of these. -/
theorem step_linesDriven (h : LinesDriven s) (next : step s = .next t) : LinesDriven t := by
  unfold step at next
  split at next
  · cases next
    exact h
  · next i rest _ => exact exec_linesDriven (s := { s with pending := rest }) ⟨h.attn, h.alert⟩ next

/-- Settles O11: every row drives the lines or leaves them with their conditions, and a reset releases both where no
condition holds. -/
theorem attentionLinesAreDriven : Obligations.AttentionLinesAreDriven := by
  refine ⟨fun s t driven next => ?step, fun pins s t i reset next => ?resets, (linesDriven_iff _).1 reset_linesDriven⟩
  case step => exact (linesDriven_iff t).1 (step_linesDriven ((linesDriven_iff s).2 driven) next)
  case resets =>
    rw [exec_reset reset] at next
    cases next
    exact ⟨(linesDriven_iff _).1 (atRelease_linesDriven pins s), rfl, rfl⟩

end Sys2Proof.Machine
end

section
/-! PROOF. O44: START, HOLD and RESUME by the controller state they find (R130, R149, R150). The mode part of each check
order decides between MODE, BADSTATE and a pass; START then opens client 0's session, HOLD writes the controller state
alone, and RESUME triggers a queue walk from the state in RUN. -/

namespace Sys2Proof.Machine

variable {s : State} {p : PortId} {c : ClientId} {m : Mode} {e : Result}

/-! ## The checks of a supervisor command -/

/-- The port test of a supervisor command passes, and leaves the decision to the checks that follow (R131). -/
theorem firstFailure_supervisor (may : SupervisorMayAct p c s) (rest : List (Bool × Result)) :
    firstFailure ((supervisorMaySend p c, .denied) :: rest) = firstFailure rest := by
  rw [may.sends]
  rfl

/-- A supervisor command that fails a check after the port test answers its result and changes nothing (R172). -/
theorem supervisor_onlyAnswers {i : Instr} {rest : State → List (Bool × Result)} {f : State → State × Reply}
    (may : SupervisorMayAct p c s)
    (hx : exec i s = command p i (checked (fun s => (supervisorMaySend p c, .denied) :: rest s) f) s)
    (fails : firstFailure (rest s) = some e) : OnlyAnswers p i { result := e } s :=
  refused_only_answers may.settled hx (checked_of_failure f ((firstFailure_supervisor may _).trans fails))

/-- A supervisor command that passes every check after the port test is taken. -/
theorem supervisor_checked {rest : State → List (Bool × Result)} (may : SupervisorMayAct p c s)
    (f : State → State × Reply) (passes : firstFailure (rest s) = none) :
    checked (fun s => (supervisorMaySend p c, .denied) :: rest s) f s = f s :=
  checked_of_pass f ((firstFailure_supervisor may _).trans passes)

/-! ## START (R130, R149) -/

/-- The channel test of START, in the words of R149. -/
theorem someEnabled_iff (s : State) : someEnabled s = true ↔ ∃ n, (s.channel n).profile.enable = true := by
  simp [someEnabled]

theorem firstFailure_start_safe (h : m = .safe) (rest : List (Bool × Result)) :
    firstFailure (startMode m ++ rest) = some .mode := by
  rw [h]
  rfl

theorem firstFailure_start_serving (h : m = .run ∨ m = .hold) (rest : List (Bool × Result)) :
    firstFailure (startMode m ++ rest) = some .badState := by
  obtain rfl | rfl := h <;> rfl

theorem firstFailure_start_config (h : m = .config) (rest : List (Bool × Result)) :
    firstFailure (startMode m ++ rest) = firstFailure rest := by
  rw [h]
  rfl

/-- The part after a START that is taken. -/
def started (s : State) : State := { s with mode := .run }.setClient 0 (openSupervisor (s.client 0))

theorem startAct_ok (may : SupervisorMayAct p c s) (config : s.mode = .config)
    (enabled : ∃ n, (s.channel n).profile.enable = true) : startAct p c s = (started s, { result := .ok }) := by
  refine supervisor_checked (rest := fun s => startMode s.mode ++ [(someEnabled s, .range)]) may _ ?_
  rw [firstFailure_start_config config, (someEnabled_iff s).2 enabled]
  rfl

/-- START writes the controller state and client 0's entry, and nothing else. -/
theorem started_kept (s : State) : ListsKept s (started s) ∧
    Untouched (fun _ => False) (fun _ => False) (fun d => d = 0) { s with mode := .run } (started s) :=
  ⟨⟨rfl, rfl, rfl, rfl, rfl, rfl, rfl⟩, .setClient 0 _ { s with mode := .run }⟩

/-! ## HOLD (R150) -/

theorem holdAct_ok (may : SupervisorMayAct p c s) (run : s.mode = .run) :
    holdAct p c s = ({ s with mode := .hold }, { result := .ok }) :=
  supervisor_checked (rest := fun s => holdMode s.mode) may _ (by rw [run]; rfl)

/-- A HOLD that is not taken answers as its check of the controller state says. -/
theorem hold_onlyAnswers (may : SupervisorMayAct p c s) (fails : firstFailure (holdMode s.mode) = some e) :
    OnlyAnswers p (.hold p c) { result := e } s :=
  supervisor_onlyAnswers (rest := fun s => holdMode s.mode) may rfl fails

/-! ## RESUME (R150, R68, R69) -/

/-- The part in RUN again, before the walk. -/
def resumed (s : State) : State := { s with mode := .run }

theorem resumeAct_ok (may : SupervisorMayAct p c s) (hold : s.mode = .hold) :
    resumeAct p c s = (walk (resumed s), { result := .ok }) :=
  supervisor_checked (rest := fun s => resumeMode s.mode) may _ (by rw [hold]; rfl)

/-- A RESUME that is not taken answers as its check of the controller state says. -/
theorem resume_onlyAnswers (may : SupervisorMayAct p c s) (fails : firstFailure (resumeMode s.mode) = some e) :
    OnlyAnswers p (.resume p c) { result := e } s :=
  supervisor_onlyAnswers (rest := fun s => resumeMode s.mode) may rfl fails

/-- HOLD and RESUME need RUN or HOLD. -/
theorem firstFailure_idle (idle : m = .config ∨ m = .safe) :
    firstFailure (holdMode m) = some .mode ∧ firstFailure (resumeMode m) = some .mode := by
  obtain rfl | rfl := idle <;> exact ⟨rfl, rfl⟩

/-- What the walk of a RESUME keeps: it is a hand-off from the part in RUN, and leaves the shed engine and the flags. -/
theorem walk_resumed_kept (s : State) :
    HandOff (resumed s) (walk (resumed s)) ∧ ShedAndFlagsKept s (walk (resumed s)) := by
  have walked := WalkKeeps.walk (resumed s)
  exact ⟨walk_handOff _, walked.shed, walked.shedList, walked.relief, walked.flags⟩

/-- The walk of a RESUME admits a head of the wait queue that fits (R69). -/
theorem walk_resumed_admits_head {j : SlotId} {q : Record} {rest : List SlotId} (idle : s.shed = .idle)
    (head : s.waitQueue = j :: rest) (hq : (s.slot j).record = some q) (queued : q.isQueued = true)
    (cool : (s.channel q.channel).state ≠ .faulted)
    (ceiling : (s.channel q.channel).sum + q.amount ≤ (s.channel q.channel).profile.ceiling)
    (room : s.committed + q.amount + (if q.cls = 0 then 0 else s.settings.reserve0) ≤ s.budget) :
    WasAdmitted j q (walk (resumed s)) := by
  have taken : visit j (resumed s) = .take :=
    visit_of_fits (s := resumed s) hq queued cool ceiling (headroom_of_room (s := resumed s) room)
  exact (walk_admits_head (s := resumed s) rfl idle head hq taken).1

/-- Settles O44: each command by the controller states in which it is refused and the one in which it is taken. -/
theorem startHoldAndResume : Obligations.StartHoldAndResume := by
  refine ⟨fun p c s may => ⟨fun safe => ?startSafe, fun serving => ?startServing, fun config none => ?startRange,
    fun config enabled => ?start⟩, fun p c s may => ⟨fun run => ?hold, fun hold => ?resume,
    fun hold => ?held, fun run => ?running, fun idle => ?idle⟩⟩
  case startSafe => exact supervisor_onlyAnswers may rfl (firstFailure_start_safe safe _)
  case startServing => exact supervisor_onlyAnswers may rfl (firstFailure_start_serving serving _)
  case startRange =>
    have disabled : someEnabled s = false := by simp [someEnabled, none]
    exact supervisor_onlyAnswers may rfl ((firstFailure_start_config config _).trans (by rw [disabled]; rfl))
  case start =>
    obtain ⟨lists, untouched⟩ := started_kept s
    exact takes_of rfl may.settled (startAct_ok may config enabled) ⟨rfl, rfl, rfl⟩ fun u part body =>
      ⟨(body.client 0).trans (State.client_setClient_same _ 0 _), lists.same body, untouched.same part body⟩
  case hold =>
    exact takes_of rfl may.settled (holdAct_ok may run) ⟨rfl, rfl, rfl⟩ fun u part body =>
      ⟨part, SameBody.trans (by constructor <;> rfl) body⟩
  case resume =>
    obtain ⟨handed, shed⟩ := walk_resumed_kept s
    have ports : SamePorts s (resumed s) := ⟨rfl, rfl, rfl⟩
    have holdings : SameHoldings s (walk (resumed s)) := handed.holdings
    refine takes_of rfl may.settled (resumeAct_ok may hold) (ports.trans handed.ports) fun u part body =>
      ⟨handed.frame.same part body, holdings.same body, shed.same body, fun busy => ?_,
        fun j q rest idle head hq queued cool ceiling room =>
          (walk_resumed_admits_head idle head hq queued cool ceiling room).same body⟩
    rw [walk_idle (s := resumed s) (.inr (.inl busy))] at body
    exact SameBody.trans (by constructor <;> rfl) body
  case held => exact hold_onlyAnswers may (by rw [hold]; rfl)
  case running => exact resume_onlyAnswers may (by rw [run]; rfl)
  case idle =>
    obtain ⟨hold, resume⟩ := firstFailure_idle idle
    exact ⟨hold_onlyAnswers may hold, resume_onlyAnswers may resume⟩

end Sys2Proof.Machine
end

section
/-! PROOF. O47: UNLOCK_CHANNEL writes one channel (R125), and CLEAR_EVENTS writes the flags and, where PORT_ERROR is
named, the counts of both ports (R159, R170). The response of CLEAR_EVENTS writes none of what is stated of a port. -/

namespace Sys2Proof.Machine

variable {s t : State} {p q : PortId} {c : ClientId} {b flags : Byte} {n : ChannelId}

/-! ## UNLOCK_CHANNEL (R125) -/

/-- A byte that carries the number of a channel names that channel. -/
theorem channelOf_of_toNat (h : b.toNat = n.val) : channelOf b = n := by
  rw [channelOf, h]
  exact Fin.ofNat_val_eq_self n

theorem channelOk_of_toNat (h : b.toNat = n.val) : channelOk b = true := by
  have := n.isLt
  simp only [channelOk, decide_eq_true_eq]
  omega

/-- The checks of UNLOCK_CHANNEL after the port test. -/
def unlockOrder (b : Byte) (s : State) : List (Bool × Result) :=
  [(s.mode.notSafe, .mode), (channelOk b, .range),
    (decide ((s.channel (channelOf b)).state = .locked), .badState)]

/-- For a channel that exists, outside SAFE, the channel state alone decides. -/
theorem firstFailure_unlock (notSafe : s.mode ≠ .safe) (named : b.toNat = n.val) :
    firstFailure (unlockOrder b s) = if (s.channel n).state = .locked then none else some .badState := by
  rw [unlockOrder, (Mode.notSafe_iff _).2 notSafe, channelOk_of_toNat named, channelOf_of_toNat named]
  by_cases locked : (s.channel n).state = .locked <;> simp [firstFailure, locked]

/-- The channel `x` after an UNLOCK_CHANNEL that is taken. -/
def Channel.unlocked (x : Channel) : Channel := { x with state := .off, timer := none, en := false, faultCount := 0 }

theorem unlockAct_ok (may : SupervisorMayAct p c s) (notSafe : s.mode ≠ .safe) (named : b.toNat = n.val)
    (locked : (s.channel n).state = .locked) :
    unlockAct p c b s = (s.setChannel n (s.channel n).unlocked, { result := .ok }) := by
  refine (supervisor_checked (rest := unlockOrder b) may _ ?_).trans ?_
  · rw [firstFailure_unlock notSafe named, if_pos locked]
  · rw [channelOf_of_toNat named]
    rfl

/-- UNLOCK_CHANNEL of a channel that is not LOCKED is refused with BADSTATE. -/
theorem unlock_badState (may : SupervisorMayAct p c s) (notSafe : s.mode ≠ .safe) (named : b.toNat = n.val)
    (unlocked : (s.channel n).state ≠ .locked) : OnlyAnswers p (.unlockChannel p c b) { result := .badState } s :=
  supervisor_onlyAnswers (rest := unlockOrder b) may rfl ((firstFailure_unlock notSafe named).trans (if_neg unlocked))

/-! ## CLEAR_EVENTS (R159, R170, R177) -/

/-- CLEAR_EVENTS that names bit 7 is refused with RANGE (R177). -/
theorem clearEvents_range (may : SupervisorMayAct p c s) (outside : flags.getLsbD 7 = true) :
    OnlyAnswers p (.clearEvents p c flags) { result := .range } s :=
  supervisor_onlyAnswers (rest := fun _ => [(!flags.getLsbD 7, .range)]) may rfl (by rw [outside]; rfl)

/-- What CLEAR_EVENTS leaves of the flags and of all else but the ports. -/
theorem clearNamed_kept (named : BitVec 7) (s : State) :
    SamePart s (clearNamed named s) ∧ SameBody { s with flags := s.flags &&& ~~~named } (clearNamed named s) := by
  unfold clearNamed
  dsimp only
  split <;> exact ⟨by constructor <;> rfl, by constructor <;> rfl⟩

/-- The port counts are cleared exactly where PORT_ERROR is named (R170). -/
theorem clearNamed_port (named : BitVec 7) (s : State) (q : PortId) :
    (clearNamed named s).port q = if named.getLsbD 5 then (s.port q).clearCounts else s.port q := by
  have bit : EventFlag.portError.bit = 5 := rfl
  unfold clearNamed
  rw [bit]
  dsimp only
  split <;> cases q <;> rfl

/-- The answer to a CLEAR_EVENTS that passes: the flags as it leaves them. -/
def clearReply (flags : Byte) (s : State) : Reply :=
  { result := .ok, payload := [(s.flags &&& ~~~(flags.setWidth 7)).setWidth 8] }

theorem clearEventsAct_ok (may : SupervisorMayAct p c s) (inside : flags.getLsbD 7 = false) :
    clearEventsAct p c flags s = (clearNamed (flags.setWidth 7) s, clearReply flags s) := by
  refine (supervisor_checked (rest := fun _ => [(!flags.getLsbD 7, .range)]) may _ (by rw [inside]; rfl)).trans ?_
  simp only [taken, clearReply, byte1, (clearNamed_kept _ s).2.flags, BitVec.ofNat_toNat]

/-- What a host sees of a port, and its two counts. -/
structure PortShows (u v : PortUnit) : Prop where
  state    : v.state = u.state
  buffer   : v.buffer = u.buffer
  overrun  : v.overrun = u.overrun
  rejected : v.rejected = u.rejected
  overruns : v.overruns = u.overruns

theorem PortShows.refl (u : PortUnit) : PortShows u u := ⟨rfl, rfl, rfl, rfl, rfl⟩

/-- The answer to a command waits in its port, and shows in no port yet (R166). -/
theorem Answered.shows {i : Instr} {a : Reply} (h : Answered p i a s t) (q : PortId) :
    PortShows (s.port q) (t.port q) := by
  by_cases own : q = p
  · rw [own, h.own]
    split
    · exact ⟨rfl, rfl, rfl, rfl, rfl⟩
    · exact .refl _
  · rw [h.other q own]
    exact .refl _

/-- Settles O47: UNLOCK_CHANNEL by the channel state, CLEAR_EVENTS by bit 7. -/
theorem unlockAndClearEvents : Obligations.UnlockAndClearEvents := by
  refine ⟨fun p c b n s may notSafe named => ⟨fun locked => ?unlock, unlock_badState may notSafe named⟩,
    fun p c flags s may => ⟨clearEvents_range may, fun inside => ?clear⟩⟩
  case unlock =>
    refine takes_of rfl may.settled (unlockAct_ok may notSafe named locked) ⟨rfl, rfl, rfl⟩ fun u part body => ?_
    obtain ⟨⟨lists, untouched⟩, written⟩ := setChannel_same n _ part body
    exact ⟨written, lists, untouched⟩
  case clear =>
    have ok := clearEventsAct_ok may inside
    obtain ⟨part, body⟩ := clearNamed_kept (flags.setWidth 7) s
    have answered := respond_answered p (.clearEvents p c flags) (clearReply flags s)
      (SamePorts.refl (clearNamed (flags.setWidth 7) s))
    refine ⟨_, command_settled may.settled ok, driveLines_driven _, part.trans (respond_part ..),
      body.trans (respond_body ..), answered.response, fun q => ?_⟩
    have shows := answered.shows q
    have portError : (flags.setWidth 7).getLsbD 5 = flags.getLsbD 5 := by simp
    rw [clearNamed_port, portError] at shows
    cases named : flags.getLsbD 5 <;> rw [named] at shows <;>
      exact ⟨shows.state, shows.buffer, shows.overrun, shows.rejected, shows.overruns⟩

end Sys2Proof.Machine
end

section
/-! PROOF. The views of Tables 50 to 54: each field stands at the offset that its table gives it (R174 to R176). A
two-byte or four-byte field is read back by `half_of_bytes` and `quad_of_bytes`, a presence bit by the place of its
flag in its byte. -/

namespace Sys2Proof.Machine

variable {s : State}

/-! ## Fields and flags -/

/-- The four bytes of a field, read as a quad. -/
theorem quad_of_bytes (n : Nat) :
    ((BitVec.ofNat 8 (n / 65536 / 256) ++ BitVec.ofNat 8 (n / 65536) : Half) ++
      (BitVec.ofNat 8 (n / 256) ++ BitVec.ofNat 8 n : Half) : Quad) = BitVec.ofNat 32 n := by
  rw [half_of_bytes, half_of_bytes, quad_of_halves]

/-- An optional tick value, read back from its four bytes. -/
theorem tick_of_bytes (t : Option Tick) :
    ((BitVec.ofNat 8 ((t.map BitVec.toNat).getD 0 / 65536 / 256) ++
        BitVec.ofNat 8 ((t.map BitVec.toNat).getD 0 / 65536) : Half) ++
      (BitVec.ofNat 8 ((t.map BitVec.toNat).getD 0 / 256) ++
        BitVec.ofNat 8 ((t.map BitVec.toNat).getD 0) : Half) : Quad) = t.getD 0 :=
  (quad_of_bytes _).trans (tick_of_view t)

/-- A half with its number, read back from its two bytes. -/
theorem half_of_toNat (h : Half) :
    (BitVec.ofNat 8 (h.toNat / 256) ++ BitVec.ofNat 8 h.toNat : Half) = h :=
  (half_of_bytes _).trans (BitVec.ofNat_toNat ..)

/-- A flag weighs the power of two of its place. -/
theorem bitAt_eq (k : Nat) (b : Bool) : bitAt k b = 2 ^ k * b.toNat := by
  cases b <;> simp [bitAt]

/-- Flags at the places from 0 on are the binary digits of their sum. -/
theorem sum_bitAt {n : Nat} (f : Fin n → Bool) : ∑ k : Fin n, bitAt k (f k) = Nat.ofBits f := by
  induction n with
  | zero => rfl
  | succ n ih =>
    have above : ∑ k : Fin n, bitAt k.succ (f k.succ) = 2 * Nat.ofBits (f ∘ Fin.succ) := by
      rw [← ih, Finset.mul_sum]
      refine Finset.sum_congr rfl fun k _ => ?_
      simp only [bitAt_eq, Fin.val_succ, pow_succ', Function.comp_apply, mul_assoc]
    rw [Fin.sum_univ_succ, above, Nat.ofBits_succ, bitAt_eq, Fin.val_zero, pow_zero, one_mul, Nat.add_comm]

/-- A byte of at most eight flags shows each flag at its place. -/
theorem getLsbD_flags {n : Nat} (f : Fin n → Bool) (k : Fin n) (fits : n ≤ 8) :
    (BitVec.ofNat 8 (∑ k : Fin n, bitAt k (f k))).getLsbD k = f k := by
  have inByte : k.val < 8 := by omega
  rw [sum_bitAt, BitVec.getLsbD_ofNat, decide_eq_true inByte, Bool.true_and, Nat.testBit_ofBits_lt f k k.isLt]

theorem getLsbD_eightFlags (f : Fin 8 → Bool) (k : Fin 8) :
    (BitVec.ofNat 8 (bitAt 0 (f 0) + bitAt 1 (f 1) + bitAt 2 (f 2) + bitAt 3 (f 3) + bitAt 4 (f 4) + bitAt 5 (f 5) +
      bitAt 6 (f 6) + bitAt 7 (f 7))).getLsbD k = f k := by
  have shown := getLsbD_flags f k le_rfl
  rwa [Fin.sum_univ_eight] at shown

theorem getLsbD_threeFlags (f : Fin 3 → Bool) (k : Fin 3) :
    (BitVec.ofNat 8 (bitAt 0 (f 0) + bitAt 1 (f 1) + bitAt 2 (f 2))).getLsbD k = f k := by
  have shown := getLsbD_flags f k (by omega)
  rwa [Fin.sum_univ_three] at shown

/-- A byte of three flags is below 8. -/
theorem toNat_threeFlags (a b c : Bool) : (BitVec.ofNat 8 (bitAt 0 a + bitAt 1 b + bitAt 2 c)).toNat < 8 := by
  have ha := a.toNat_le
  have hb := b.toNat_le
  have hc := c.toNat_le
  simp only [BitVec.toNat_ofNat, bitAt_eq]
  omega

/-! ## The grant view (Table 50) -/

/-- The flags of byte 8 of the grant view. -/
def Record.viewFlags (r : Record) : Fin 8 → Bool :=
  ![r.leaseLength?.isSome, r.floor.isSome, r.lease?.isSome, r.wait?.isSome, r.isLive, r.powered, r.notice?.isSome,
    r.reason?.isSome]

theorem grantView_layout (i : SlotId) (r : Record) (s : State) : GrantLayout i r s (grantView i r s) := by
  simp only [grantView, byte1, byte2, byte4, tickBytes, List.cons_append, List.nil_append]
  exact
    { length   := rfl
      handle   := half_of_bytes _
      state    := rfl
      owner    := rfl
      channel  := rfl
      amount   := half_of_bytes _
      cls      := rfl
      leased   := getLsbD_eightFlags r.viewFlags 0
      floored  := getLsbD_eightFlags r.viewFlags 1
      leasing  := getLsbD_eightFlags r.viewFlags 2
      waiting  := getLsbD_eightFlags r.viewFlags 3
      live     := getLsbD_eightFlags r.viewFlags 4
      powered  := getLsbD_eightFlags r.viewFlags 5
      noticed  := getLsbD_eightFlags r.viewFlags 6
      retired  := getLsbD_eightFlags r.viewFlags 7
      floor    := half_of_bytes _
      term     := quad_of_bytes _
      lease    := tick_of_bytes _
      wait     := tick_of_bytes _
      tag      := half_of_toNat _
      required := half_of_bytes _
      deadline := tick_of_bytes _
      busy     := rfl
      reason   := rfl
      kinds    := rfl }

/-! ## The notice (Table 51) -/

/-- The flags of byte 8 of a notice. -/
def Record.noticeFlags (r : Record) : Fin 3 → Bool := ![r.powered, r.notice?.isSome, r.reason?.isSome]

theorem noticeView_layout (i : SlotId) (r : Record) (s : State) : NoticeLayout i r s (noticeView i r s) := by
  simp only [noticeView, byte1, byte2, List.cons_append, List.nil_append]
  exact
    { length   := rfl
      handle   := half_of_bytes _
      tag      := half_of_toNat _
      kinds    := rfl
      state    := rfl
      amount   := half_of_bytes _
      powered  := getLsbD_threeFlags r.noticeFlags 0
      noticed  := getLsbD_threeFlags r.noticeFlags 1
      retired  := getLsbD_threeFlags r.noticeFlags 2
      flags    := toNat_threeFlags _ _ _
      required := half_of_bytes _
      allowed  := rfl
      reason   := rfl }

/-! ## The client view (Table 52) -/

/-- A flag alone in its byte. -/
theorem ofNat_flag (b : Bool) : BitVec.ofNat 8 (bitAt 0 b) = if b then 1 else 0 := by cases b <;> rfl

theorem clientView_layout (c : ClientId) (s : State) : ClientLayout c (s.client c) (clientView c s) := by
  simp only [clientView, byte1, byte2, List.cons_append, List.nil_append]
  exact
    { length    := rfl
      client    := rfl
      session   := ofNat_flag _
      quota     := half_of_bytes _
      limit     := rfl
      best      := rfl
      attention := ofNat_flag _
      committed := half_of_bytes _
      held      := half_of_bytes _
      occupied  := rfl
      notices   := rfl }

/-! ## The channel view (Table 54) -/

/-- The line levels in byte 14 of the channel view. -/
def Channel.lineFlags (x : Channel) : Fin 3 → Bool := ![x.en, x.pg, x.fltN]

/-- The tombstones of a channel, counted over the slots. -/
theorem tombstones_eq (n : ChannelId) (s : State) :
    tombstones n s = (List.finRange 64).countP fun i =>
      (s.slot i).record.any fun r => decide (r.channel = n) && r.isRetired :=
  List.countP_eq_length_filter.symm

theorem channelView_layout (n : ChannelId) (s : State) : ChannelLayout n (s.channel n) s (channelView n s) := by
  simp only [channelView, byte1, byte2, byte4, tickBytes, List.cons_append, List.nil_append]
  exact
    { length     := rfl
      channel    := rfl
      state      := rfl
      sum        := half_of_bytes _
      live       := rfl
      queued     := rfl
      tombstones := congrArg (BitVec.ofNat 8) (tombstones_eq n s)
      count      := rfl
      cause      := rfl
      timer      := rfl
      deadline   := tick_of_bytes _
      en         := getLsbD_threeFlags (s.channel n).lineFlags 0
      pg         := getLsbD_threeFlags (s.channel n).lineFlags 1
      fltN       := getLsbD_threeFlags (s.channel n).lineFlags 2
      lines      := toNat_threeFlags _ _ _ }

/-! ## The status view (Table 53) -/

/-- Byte 2 of the status view: the tier codes, the pending bit and the SAFE_N level. -/
def tierByte (s : State) : Byte :=
  BitVec.ofNat 8 (s.selected.val + 4 * (s.pendingTier.map Fin.val).getD 0 + bitAt 4 s.pendingTier.isSome
    + bitAt 5 (decide (s.tierLines.val % 2 = 1)) + bitAt 6 (decide (2 ≤ s.tierLines.val)) + bitAt 7 s.safePin)

/-- The number of the pending tier, or the 0 of an absent one, fits its two bits. -/
theorem pendingTier_lt (t : Option Tier) : (t.map Fin.val).getD 0 < 4 := by
  cases t with
  | none => exact Nat.zero_lt_succ 3
  | some k => exact k.isLt

/-- The two bits of the lines are the tier code on them. -/
theorem bitAt_lines (k : Tier) :
    bitAt 5 (decide (k.val % 2 = 1)) + bitAt 6 (decide (2 ≤ k.val)) = 32 * k.val := by
  revert k
  decide

/-- The parts of byte 2, each at the weight of its lowest bit. -/
theorem tierByte_toNat (s : State) :
    (tierByte s).toNat = s.selected.val + 4 * (s.pendingTier.map Fin.val).getD 0 + 16 * s.pendingTier.isSome.toNat
      + 32 * s.tierLines.val + 128 * s.safePin.toNat := by
  have selected := s.selected.isLt
  have pending := pendingTier_lt s.pendingTier
  have isPending := s.pendingTier.isSome.toNat_le
  have lines := s.tierLines.isLt
  have safeN := s.safePin.toNat_le
  have linesBits := bitAt_lines s.tierLines
  rw [tierByte, BitVec.toNat_ofNat, bitAt_eq 4, bitAt_eq 7]
  omega

/-- The two bits of byte 2 from place `k` on. -/
theorem tierByte_code {k v : Nat} (h : (tierByte s).toNat / 2 ^ k % 4 = v % 4) :
    (tierByte s).extractLsb' k 2 = BitVec.ofNat 2 v := by
  apply BitVec.eq_of_toNat_eq
  rw [BitVec.extractLsb'_toNat, Nat.shiftRight_eq_div_pow, BitVec.toNat_ofNat]
  exact h

/-- The bit of byte 2 at place `k`. -/
theorem tierByte_flag {k : Nat} {b : Bool} (h : (tierByte s).toNat / 2 ^ k % 2 = b.toNat) :
    (tierByte s).getLsbD k = b := by
  rw [← BitVec.testBit_toNat, Nat.testBit_eq_decide_div_mod_eq, h]
  cases b <;> rfl

theorem statusView_layout (s : State) : StatusLayout s (statusView s) := by
  have tiers := tierByte_toNat s
  have selected := s.selected.isLt
  have pending := pendingTier_lt s.pendingTier
  have isPending := s.pendingTier.isSome.toNat_le
  have lines := s.tierLines.isLt
  have safeN := s.safePin.toNat_le
  simp only [statusView, byte1, byte2, byte4, List.cons_append, List.nil_append]
  exact
    { length     := rfl
      mode       := rfl
      shed       := rfl
      selected   := tierByte_code (by omega)
      pending    := tierByte_code (by omega)
      isPending  := tierByte_flag (by omega)
      lines      := tierByte_code (by omega)
      safeN      := tierByte_flag (by omega)
      budget     := half_of_bytes _
      committed  := quad_of_bytes _
      relief     := quad_of_bytes _
      reserve    := half_of_bytes _
      waiting    := rfl
      free       := rfl
      flags      := BitVec.ofNat_toNat ..
      tick       := (quad_of_bytes _).trans (BitVec.ofNat_toNat ..)
      rejected   := rfl
      overruns   := rfl
      rejectedM  := rfl
      overrunsM  := rfl }

end Sys2Proof.Machine
end

section
/-! PROOF. O32: what QUERY answers (R4, R22, R174). The checks of R4 decide between RANGE, STALE, NOTOWNER and the grant
view; none of them changes anything. -/

namespace Sys2Proof.Machine

variable {s : State} {p : PortId} {c : ClientId} {h : Half} {i : SlotId} {r : Record} {e : Result}
variable {pre : List (Bool × Result)} {ok : Bool} {mayName : Record → Bool}

/-! ## The check order of R4, by the step that fails -/

/-- A handle outside its range is refused with RANGE. -/
theorem namedRecord_range (passes : firstFailure pre = none) (outside : handleOk h = false) :
    namedRecord pre ok h mayName s = .error .range := by
  simp only [namedRecord, firstFailure_append, passes, outside, Bool.false_and, firstFailure, Option.none_or]

/-- A handle that names no record is refused with STALE. -/
theorem namedRecord_stale (passes : firstFailure pre = none) (inside : handleOk h = true) (stale : named h s = none) :
    namedRecord pre true h mayName s = .error .stale := by
  simp only [namedRecord, firstFailure_append, passes, inside, Bool.and_true, firstFailure, Option.none_or, stale]

/-- A record that the client may not name is refused with NOTOWNER. -/
theorem namedRecord_notOwner (passes : firstFailure pre = none) (names : Names h i r s) (mayNot : mayName r = false) :
    namedRecord pre true h mayName s = .error .notOwner := by
  have found := named_of_handle s names.handle names.record
  simp only [namedRecord, firstFailure_append, passes, handleOk_of names.handle, Bool.and_true, firstFailure,
    Option.none_or, found, mayNot, Bool.false_eq_true, if_false]

/-! ## QUERY (R22) -/

/-- The record that a QUERY finds: client 0 may name any. -/
def queried (p : PortId) (c : ClientId) (h : Half) (s : State) : Except Result (SlotId × Record) :=
  namedRecord (clientChecks p c s.mode.notSafe s) true h (fun r => decide (c = 0) || decide (r.owner = c)) s

/-- A QUERY that finds no record answers why, and changes nothing. -/
theorem query_refused (may : ClientMayAct p c s) (fails : queried p c h s = .error e) :
    OnlyAnswers p (.query p c h) { result := e } s := by
  have acts : queryAct p c h s = (s, { result := e }) := by
    rw [queried] at fails
    simp only [queryAct, fails, refuse]
  exact refused_only_answers may.settled rfl acts

/-- A QUERY that finds a record answers its grant view, and changes nothing. -/
theorem query_ok (may : ClientMayAct p c s) (finds : queried p c h s = .ok (i, r)) :
    OnlyAnswers p (.query p c h) { result := .ok, payload := grantView i r s } s := by
  have acts : queryAct p c h s = (s, { result := .ok, payload := grantView i r s }) := by
    rw [queried] at finds
    simp only [queryAct, finds, taken]
  exact refused_only_answers may.settled rfl acts

/-- Settles O32: one case per step of the check order of R4, and the layout of the view that the last one answers. -/
theorem queryReturnsTheGrantView : Obligations.QueryReturnsTheGrantView := by
  intro p c h s may notSafe
  have passes : firstFailure (clientChecks p c s.mode.notSafe s) = none :=
    firstFailure_client may ((Mode.notSafe_iff _).2 notSafe)
  refine ⟨fun outside => ?range, fun inside stale => ?stale, fun i r names =>
    ⟨fun owns => ?view, fun plain other => ?notOwner⟩⟩
  case range => exact query_refused may (namedRecord_range passes (decide_eq_false outside.not_ge))
  case stale => exact query_refused may (namedRecord_stale passes (decide_eq_true inside) (named_stale stale))
  case view =>
    have mayName : (decide (c = 0) || decide (r.owner = c)) = true := by simpa using owns
    have checks : firstFailure (clientChecks p c s.mode.notSafe s ++ [(handleOk h && true, .range)]) = none := by
      rw [firstFailure_append, passes, handleOk_of names.handle]
      rfl
    exact ⟨_, query_ok may (namedRecord_ok checks names.handle names.record mayName), grantView_layout i r s⟩
  case notOwner =>
    exact query_refused may (namedRecord_notOwner passes names (by simp [plain, other]))

end Sys2Proof.Machine
end

section
/-! PROOF. O35: what CLIENT_STATUS, READ_STATUS and READ_CHANNEL answer (R126, R143, R160, R170, R176). Each has its
checks and then answers its view; none changes anything. -/

namespace Sys2Proof.Machine

variable {s : State} {p : PortId} {c d : ClientId} {b : Byte} {n : ChannelId} {target : Option Byte}

/-! ## CLIENT_STATUS (R143) -/

/-- The number of the client that a CLIENT_STATUS asks for: its own where it names none. -/
def askedFor (c : ClientId) (target : Option Byte) : Nat := (target.map BitVec.toNat).getD c.val

/-- The checks of CLIENT_STATUS after the port, session and controller state tests. -/
def statusOrder (c : ClientId) (target : Option Byte) : List (Bool × Result) :=
  [(decide (askedFor c target ≤ 15), .range), (decide (c = 0) || decide (askedFor c target = c.val), .notOwner)]

theorem askedFor_eq (asks : (target = none ∧ d = c) ∨ (∃ b, target = some b ∧ b.toNat = d.val)) :
    askedFor c target = d.val := by
  obtain ⟨rfl, rfl⟩ | ⟨b, rfl, named⟩ := asks
  · rfl
  · exact named

/-- Where the target is a client, whether the sender may ask for it decides. -/
theorem firstFailure_statusOrder (asks : askedFor c target = d.val) :
    firstFailure (statusOrder c target) = if c = 0 ∨ d = c then none else some .notOwner := by
  have inRange : decide (askedFor c target ≤ 15) = true := by simpa [asks] using Nat.le_of_lt_succ d.isLt
  have mayAsk : (decide (c = 0) || decide (askedFor c target = c.val)) = decide (c = 0 ∨ d = c) := by
    rw [asks, Bool.decide_or, decide_eq_decide.2 Fin.val_inj]
  rw [statusOrder, inRange, mayAsk]
  by_cases own : c = 0 ∨ d = c <;> simp [firstFailure, own]

/-- A CLIENT_STATUS that fails a check of its own answers its result, and changes nothing. -/
theorem clientStatus_refused {e : Result} (may : ClientMayAct p c s) (notSafe : s.mode ≠ .safe)
    (fails : firstFailure (statusOrder c target) = some e) :
    OnlyAnswers p (.clientStatus p c target) { result := e } s :=
  refused_only_answers may.settled rfl
    (checked_of_failure (checks := fun s => clientChecks p c s.mode.notSafe s ++ statusOrder c target) _
      ((firstFailure_client_append may notSafe _).trans fails))

/-- A CLIENT_STATUS that passes answers the client view of its target, and changes nothing. -/
theorem clientStatus_ok (may : ClientMayAct p c s) (notSafe : s.mode ≠ .safe) (asks : askedFor c target = d.val)
    (own : c = 0 ∨ d = c) :
    OnlyAnswers p (.clientStatus p c target) { result := .ok, payload := clientView d s } s := by
  have asked : Fin.ofNat 16 (askedFor c target) = d := by rw [asks, Fin.ofNat_val_eq_self]
  have passes := (firstFailure_statusOrder asks).trans (if_pos own)
  refine refused_only_answers may.settled rfl
    ((checked_of_pass (checks := fun s => clientChecks p c s.mode.notSafe s ++ statusOrder c target) _
      ((firstFailure_client_append may notSafe _).trans passes)).trans ?_)
  rw [← asked]
  rfl

/-! ## READ_STATUS and READ_CHANNEL (R126, R160) -/

theorem readStatus_ok (may : SupervisorMayAct p c s) :
    OnlyAnswers p (.readStatus p c) { result := .ok, payload := statusView s } s :=
  refused_only_answers may.settled rfl (supervisor_checked (rest := fun _ => []) may _ rfl)

theorem readChannel_range (may : SupervisorMayAct p c s) (outside : channelOk b = false) :
    OnlyAnswers p (.readChannel p c b) { result := .range } s :=
  supervisor_onlyAnswers (rest := fun _ => [(channelOk b, .range)]) may rfl (by rw [outside]; rfl)

theorem readChannel_ok (may : SupervisorMayAct p c s) (names : b.toNat = n.val) :
    OnlyAnswers p (.readChannel p c b) { result := .ok, payload := channelView n s } s := by
  refine refused_only_answers may.settled rfl
    ((supervisor_checked (rest := fun _ => [(channelOk b, .range)]) may _ ?_).trans ?_)
  · rw [channelOk_of_toNat names]
    rfl
  · rw [channelOf_of_toNat names]
    rfl

/-- Settles O35: the answer of each command by its checks, and the layout of the view that it answers. -/
theorem statusViewsAreReturned : Obligations.StatusViewsAreReturned := by
  refine ⟨fun p c target s may notSafe => ⟨fun d asks => ⟨fun own => ?client, fun plain other => ?notOwner⟩,
    fun b named outside => ?range⟩, fun p c s may =>
      ⟨?status, fun b n names => ?channel, fun b outside => ?noChannel⟩⟩
  case client => exact ⟨_, clientStatus_ok may notSafe (askedFor_eq asks) own, clientView_layout d s⟩
  case notOwner =>
    have foreign : ¬ (c = 0 ∨ d = c) := not_or.2 ⟨plain, other⟩
    exact clientStatus_refused may notSafe ((firstFailure_statusOrder (askedFor_eq asks)).trans (if_neg foreign))
  case range =>
    subst named
    have tooHigh : decide (askedFor c (some b) ≤ 15) = false := decide_eq_false outside.not_ge
    exact clientStatus_refused may notSafe (by rw [statusOrder, tooHigh]; rfl)
  case status => exact ⟨_, readStatus_ok may, statusView_layout s⟩
  case channel => exact ⟨_, readChannel_ok may names, channelView_layout n s⟩
  case noChannel => exact readChannel_range may (decide_eq_false outside.not_ge)

end Sys2Proof.Machine
end

section
/-! PROOF. O34: what NEXT_NOTICE delivers (R15, R140, R141, R175). The head of the queue is a record of the client with
kinds pending, and a tombstone exactly where RETIRED is among them, so the delivery either empties its pending set or
frees its slot. A tombstone is in no list and in no sum but the slot count, so reaping it touches the slot and the
client alone. -/

namespace Sys2Proof.Machine

variable {s : State} {p : PortId} {c : ClientId} {i : SlotId} {r : Record} {rest : List SlotId} {x : Slot} {o : Client}

/-! ## Writing one slot and one client -/

/-- Writing a slot and a client's entry leaves the lists, the committed total, the shed engine and the event flags. -/
theorem ListsKept.setSlot_setClient (i : SlotId) (x : Slot) (c : ClientId) (o : Client) (s : State) :
    ListsKept s ((s.setSlot i x).setClient c o) :=
  ⟨rfl, rfl, rfl, ⟨rfl, rfl, rfl, rfl⟩⟩

/-- Writing a slot and a client's entry touches these two alone. -/
theorem Untouched.setSlot_setClient (i : SlotId) (x : Slot) (c : ClientId) (o : Client) (s : State) :
    Untouched (fun j => j = i) (fun _ => False) (fun d => d = c) s ((s.setSlot i x).setClient c o) where
  part         := by constructor <;> rfl
  slots _ hj   := s.slot_setSlot_other x hj
  channels _ _ := rfl
  clients d hd := ((s.setSlot i x).client_setClient c d o).trans (if_neg hd)

/-- A command whose action writes the slot `i` and the entry of client `c` leaves exactly those there, and all else as
it was. -/
theorem takes_setSlot_setClient {k : Instr} {a : Reply} {f : State → State × Reply}
    (hx : exec k s = command p k f s) (settled : s.resetSafe = false)
    (hf : f s = ((s.setSlot i x).setClient c o, a)) :
    Takes p k a s fun t =>
      (t.slot i = x ∧ t.client c = o) ∧ ListsKept s t ∧
        Untouched (fun j => j = i) (fun _ => False) (fun d => d = c) s t := by
  have ports : SamePorts s ((s.setSlot i x).setClient c o) := ⟨rfl, rfl, rfl⟩
  refine takes_of hx settled hf ports fun u part body => ⟨⟨?_, ?_⟩, ?_, ?_⟩
  · exact (body.slot i).trans (s.slot_setSlot_same i x)
  · exact (body.client c).trans ((s.setSlot i x).client_setClient_same c o)
  · exact (ListsKept.setSlot_setClient i x c o s).same body
  · exact (Untouched.setSlot_setClient i x c o s).same part body

/-! ## The head of a notice queue (R139) -/

/-- Without its head a queue is its rest. -/
theorem without_head (once : (i :: rest).Nodup) : without i (i :: rest) = rest := by
  have away : ∀ j ∈ rest, (j != i) = true := fun j hj => bne_iff_ne.2 fun same =>
    (List.nodup_cons.1 once).1 (same ▸ hj)
  simp only [without, List.filter_cons, bne_self_eq_false, Bool.false_eq_true, if_false]
  exact List.filter_eq_self.2 away

/-- The head of a client's notice queue, as R139 has it: a record of the client, a tombstone exactly where RETIRED is
pending, and in the queue once. -/
structure NoticeHead (c : ClientId) (i : SlotId) (rest : List SlotId) (r : Record) (s : State) : Prop where
  queue   : (s.client c).notices = i :: rest
  record  : (s.slot i).record = some r
  owner   : r.owner = c
  retired : r.kinds.retired = r.isRetired
  without : without i (s.client c).notices = rest

theorem NoticesExact.head (notices : NoticesExact s) (queue : (s.client c).notices = i :: rest)
    (record : (s.slot i).record = some r) : NoticeHead c i rest r s := by
  obtain ⟨once, holds⟩ := notices.queue c
  obtain ⟨tombstone, pending⟩ := notices.retired i r record
  have inQueue : (s.slot i).record.any (fun r => decide (r.owner = c) && !r.kinds.isEmpty) = true :=
    (holds i).1 (by simp [queue])
  have owner : r.owner = c := by
    rw [record, Option.any_some, Bool.and_eq_true, decide_eq_true_eq] at inQueue
    exact inQueue.1
  have retired : r.kinds.retired = r.isRetired := Bool.eq_iff_iff.2 ⟨pending, fun is => by rw [tombstone is]⟩
  exact ⟨queue, record, owner, retired, by rw [queue]; exact without_head (queue ▸ once)⟩

/-! ## The delivery (R141) -/

/-- A tombstone is in no list and in no sum but its owner's slot count. -/
theorem detach_retired (retired : r.isRetired = true) (i : SlotId) (s : State) : detach i r s = s := by
  unfold detach
  split
  next waits => simp [Record.isRetired, waits] at retired
  next live => simp [Record.isRetired, live] at retired
  next => rfl

/-- A record that stays has its pending set emptied and leaves the queue. -/
theorem deliver_kept (head : NoticeHead c i rest r s) (stays : r.isRetired = false) :
    deliver i r s = (s.setSlot i { gen := (s.slot i).gen, record := some { r with kinds := {} } }).setClient c
      { s.client c with notices := rest } := by
  have notPending : ¬ r.kinds.retired = true := by simp [head.retired, stays]
  have empty : ({} : KindSet).isEmpty = true := rfl
  rw [deliver, if_neg notPending, setKinds, head.owner, if_pos empty]
  dsimp only
  rw [head.without]
  rfl

/-- A delivered tombstone is reaped: its slot is FREE with its generation advanced (R12, R15). -/
theorem deliver_reaped (head : NoticeHead c i rest r s) (retired : r.isRetired = true) :
    deliver i r s = (s.setSlot i { gen := (s.slot i).gen + 1, record := none }).setClient c
      { s.client c with notices := rest, occupied := (s.client c).occupied - 1 } := by
  rw [deliver, if_pos (head.retired.trans retired), freeRecord, detach_retired retired, head.owner]
  dsimp only
  rw [head.without]
  rfl

/-! ## NEXT_NOTICE (R140) -/

theorem nextNoticeAct_empty (may : ClientMayAct p c s) (notSafe : s.mode ≠ .safe)
    (empty : (s.client c).notices = []) : nextNoticeAct p c s = (s, { result := .ok }) := by
  refine (checked_of_pass _ (firstFailure_client may ((Mode.notSafe_iff _).2 notSafe))).trans ?_
  simp only [empty, taken]

theorem nextNoticeAct_head (may : ClientMayAct p c s) (notSafe : s.mode ≠ .safe) (head : NoticeHead c i rest r s) :
    nextNoticeAct p c s = (deliver i r s, { result := .ok, payload := noticeView i r s }) := by
  refine (checked_of_pass _ (firstFailure_client may ((Mode.notSafe_iff _).2 notSafe))).trans ?_
  simp only [head.queue, head.record, taken]

/-- A NEXT_NOTICE with a head writes what its delivery writes: the slot of the head and the client's entry. -/
theorem nextNotice_writes (may : ClientMayAct p c s) (notSafe : s.mode ≠ .safe) (head : NoticeHead c i rest r s)
    (delivers : deliver i r s = (s.setSlot i x).setClient c o) :
    Takes p (.nextNotice p c) { result := .ok, payload := noticeView i r s } s fun t =>
      (t.slot i = x ∧ t.client c = o) ∧ ListsKept s t ∧
        Untouched (fun j => j = i) (fun _ => False) (fun d => d = c) s t :=
  takes_setSlot_setClient rfl may.settled (by rw [nextNoticeAct_head may notSafe head, delivers])

/-- Settles O34: an empty queue changes nothing; otherwise the delivery of the head writes its slot and the client's
entry, by whether it is a tombstone. -/
theorem nextNoticeDeliversTheHead : Obligations.NextNoticeDeliversTheHead := by
  intro p c s may notSafe notices
  refine ⟨fun empty => ?empty, fun i rest r queue record => ⟨noticeView i r s, noticeView_layout i r s, ?head⟩⟩
  case empty => exact refused_only_answers may.settled rfl (nextNoticeAct_empty may notSafe empty)
  case head =>
    have head := notices.head queue record
    cases retired : r.isRetired with
    | false =>
      obtain ⟨t, ran, answered, driven, written, lists, untouched⟩ :=
        nextNotice_writes may notSafe head (deliver_kept head retired)
      exact ⟨t, ran, answered, driven, lists, untouched, fun _ => written, nofun⟩
    | true =>
      obtain ⟨t, ran, answered, driven, written, lists, untouched⟩ :=
        nextNotice_writes may notSafe head (deliver_reaped head retired)
      exact ⟨t, ran, answered, driven, lists, untouched, nofun, fun _ => written⟩

end Sys2Proof.Machine
end

section
/-! PROOF. O4: the CRC of R165 and its place in frames. A request frame and a response frame are a body and its CRC, and
a request frame passes check 2 of R164 exactly with the CRC of its body at its end. -/

namespace Sys2Proof.Machine

variable {f body : List Byte} {i : Instr} {p : PortId}

/-! ## The CRC, byte by byte -/

/-- One more byte: exclusive-or, then eight shifts. -/
theorem crc_append (bytes : List Byte) (x : Byte) : crc (bytes ++ [x]) =
    crcShift (crcShift (crcShift (crcShift (crcShift (crcShift (crcShift (crcShift (crc bytes ^^^ x)))))))) := by
  rw [crc, List.foldl_append]
  rfl

theorem crcShift_eq (r : Byte) : crcShift r = if r.getLsbD 7 then (r <<< 1) ^^^ 0x07 else r <<< 1 := by
  rw [crcShift, BitVec.msb_eq_getLsbD_last]

/-! ## The last byte of a frame -/

/-- The last byte of the frame is the CRC of those before it. -/
def EndsWithCrc (f : List Byte) : Prop := byteAt f (f.length - 1) = crc (f.take (f.length - 1))

theorem byteAt_length (l : List Byte) (x : Byte) : byteAt (l ++ [x]) l.length = x := by
  simp [byteAt]

theorem endsWithCrc_append (body : List Byte) : EndsWithCrc (body ++ [crc body]) := by
  have last : (body ++ [crc body]).length - 1 = body.length := by simp
  rw [EndsWithCrc, last, byteAt_length, List.take_left]

/-- Check 2 of R164. -/
theorem EndsWithCrc.of_frameCrcOk (ok : frameCrcOk f = true) : EndsWithCrc f := by
  have last : f.getLast? = some (crc f.dropLast) := beq_iff_eq.1 ok
  rw [← List.dropLast_append_getLast? _ last]
  exact endsWithCrc_append _

theorem EndsWithCrc.of_requestFrame {tag : BitVec 4} (frame : requestFrame tag i = some f) : EndsWithCrc f := by
  obtain ⟨⟨_, _, _, _⟩, -, rfl⟩ := Option.map_eq_some_iff.1 frame
  exact endsWithCrc_append _

/-- A frame that is not refused with BADFRAME has passed check 2. -/
theorem EndsWithCrc.of_checkFrame (accepted : checkFrame p f ≠ .badFrame) : EndsWithCrc f := by
  refine .of_frameCrcOk (Bool.of_not_eq_false fun wrong => accepted ?_)
  simp only [checkFrame, wrong, Bool.not_false, if_true, ite_self]

/-! ## Response frames (Table 45) -/

theorem responseFrame_length (a : Reply) (echo : Byte × Byte) (overrun : Bool) :
    (responseFrame a echo overrun).length = a.payload.length + 5 := by
  simp [responseFrame]

theorem responseFrame_endsWithCrc (a : Reply) (echo : Byte × Byte) (overrun : Bool) :
    EndsWithCrc (responseFrame a echo overrun) :=
  endsWithCrc_append _

/-- The overrun mark is bit 7 of the length byte, above the payload length. -/
theorem responseFrame_overrun {a : Reply} (short : a.payload.length < 128) (echo : Byte × Byte) (overrun : Bool) :
    (byteAt (responseFrame a echo overrun) 3).getLsbD 7 = overrun := by
  have lengthByte : byteAt (responseFrame a echo overrun) 3 = BitVec.ofNat 8 (bitAt 7 overrun + a.payload.length) := rfl
  have bit7 : (bitAt 7 overrun + a.payload.length) / 2 ^ 7 % 2 = overrun.toNat := by
    have := overrun.toNat_le
    rw [bitAt_eq]
    omega
  rw [lengthByte, BitVec.getLsbD_ofNat, Nat.testBit_eq_decide_div_mod_eq, bit7]
  cases overrun <;> rfl

/-- Settles O4: the step of the CRC, its check values, and its place in each kind of frame. -/
theorem crcIsAsGiven : Obligations.CrcIsAsGiven := by
  refine ⟨rfl, crc_append, crcShift_eq, by decide +kernel, by decide +kernel, fun a echo overrun k length short => ?_,
    fun _ _ _ => EndsWithCrc.of_requestFrame, fun _ _ => EndsWithCrc.of_checkFrame⟩
  subst length
  have crcLast := responseFrame_endsWithCrc a echo overrun
  rw [EndsWithCrc, responseFrame_length] at crcLast
  exact ⟨responseFrame_length a echo overrun, responseFrame_overrun short echo overrun, crcLast⟩

end Sys2Proof.Machine
end

section
/-! PROOF. What a row can do to the part, said once: `Move` lists the changes that the claims are made of, and every row
but the tick and the two resets is a chain of them. An invariant is then kept by every step where each `Move` keeps it. -/

namespace Sys2Proof.Machine

variable {s t u : State} {p : PortId} {c : ClientId} {i : Instr}

/-! ## The changes -/

/-- A change beside the table: ports, which stay as Table 43 has them, event flags, attention lines, the SAFE_N levels,
the sender's windows. -/
structure Aside (s t : State) : Prop where
  slots       : t.slots = s.slots
  admission   : t.admission = s.admission
  committed   : t.committed = s.committed
  waitQueue   : t.waitQueue = s.waitQueue
  shed        : t.shed = s.shed
  shedList    : t.shedList = s.shedList
  relief      : t.relief = s.relief
  channels    : t.channels = s.channels
  clients     : t.clients = s.clients
  mode        : t.mode = s.mode
  settings    : t.settings = s.settings
  tick        : t.tick = s.tick
  settleTimer : t.settleTimer = s.settleTimer
  selected    : t.selected = s.selected
  pendingTier : t.pendingTier = s.pendingTier
  budget      : t.budget = s.budget
  pending     : t.pending = s.pending
  ports       : PortsOk s → PortsOk t

/-- The settings that are not a channel's lie within their ranges (Table 40). -/
structure Settings.Within (g : Settings) : Prop where
  tierBudget : ∀ k : Tier, g.tierBudget[k] ≤ 20000
  budgetCap  : g.budgetCap ≤ 20000
  reserve0   : g.reserve0 ≤ 20000
  tierSettle : 1 ≤ g.tierSettle ∧ g.tierSettle ≤ 255
  noticeTime : 5 ≤ g.noticeTime ∧ g.noticeTime ≤ 5000
  busyLimit  : g.busyLimit ≤ 3

/-- A REQUEST of client `c` for `a` has passed its checks, and slot `i` is the lowest-numbered FREE one (R56). -/
structure CanRequest (c : ClientId) (a : Ask) (i : SlotId) (s : State) : Prop where
  session : (s.client c).isOpen = true
  serves  : s.mode.serves = true
  passes  : RequestPasses c a s
  free    : lowestFree s = some i
  asks    : ∃ channel amount cls flags lease floor timeout tag,
    askOf channel amount cls flags lease floor timeout tag = some a

/-- No slot that is not FREE names the channel, which is DISABLED, OFF or LOCKED (R108). -/
structure ChannelFree (n : ChannelId) (s : State) : Prop where
  state   : (s.channel n).state = .disabled ∨ (s.channel n).state = .off ∨ (s.channel n).state = .locked
  records : ∀ j r, (s.slot j).record = some r → r.channel ≠ n

/-- The channel that a write of a key of its profile leaves (R109). -/
def Channel.keyWritten (k : ChannelKey) (v : Nat) (x : Channel) : Channel :=
  let y := { x with profile := x.profile.put k v }
  if k = .enable then y.enableWritten (decide (v ≠ 0)) else y

/-- What can be written to channel `n` without any change of records. -/
inductive ChannelWrite (s : State) (n : ChannelId) : Channel → Prop where
  /-- The levels of the switch lines, and the sampled event (R110). -/
  | level (pg fltN : Bool) (sampled : Option SampledEvent) :
      ChannelWrite s n { s.channel n with pg := pg, fltN := fltN, sampled := sampled }
  /-- The discharge has expired (R118). -/
  | discharged (stopping : (s.channel n).state = .stopping) :
      ChannelWrite s n
        (if (s.channel n).live = 0 then (s.channel n).enter .off none else (s.channel n).beginStart s.tick)
  /-- The clean timer has expired (R124). -/
  | clean (on : (s.channel n).state = .on) : ChannelWrite s n { s.channel n with faultCount := 0, timer := none }
  /-- UNLOCK_CHANNEL (R125). -/
  | unlock (locked : (s.channel n).state = .locked) : ChannelWrite s n (s.channel n).unlocked
  /-- A key of the profile of an empty channel (R108, R109). -/
  | key (k : ChannelKey) (v : Nat) (inRange : channelValueOk k v = true) (empty : ChannelFree n s) :
      ChannelWrite s n ((s.channel n).keyWritten k v)

/-- The notice after a BUSY that extends it (R92). -/
def Notice.extended (n : Notice) (s : State) : Notice :=
  { n with busy := n.busy + 1, deadline := deadlineIn s.settings.noticeTime s }

/-- The changes that the claims are made of, each with the hand-offs that follow it within its claim (R20). -/
inductive Move (s : State) : State → Prop where
  | aside {t : State} (same : Aside s t) : Move s t
  | enter {c : ClientId} {a : Ask} {i : SlotId} (can : CanRequest c a i s) (fits : FitsNow a s) :
      Move s (admitRequest i c a s)
  | queue {c : ClientId} {a : Ask} {i : SlotId} (can : CanRequest c a i s) (room : s.waitQueue.length < 16) :
      Move s (queueRequest i c a s)
  | free {i : SlotId} {r : Record} (record : (s.slot i).record = some r) (standing : r.isRetired = false) :
      Move s (handOnChange r.ending (freeReporting i r s))
  | retire {i : SlotId} {r : Record} (reason : Reason) (record : (s.slot i).record = some r)
      (standing : r.isRetired = false) : Move s (handOnChange r.ending (retireReporting reason i r s))
  | shrink {i : SlotId} {r : Record} {a : Nat} (record : (s.slot i).record = some r) (active : r.isActive = true)
      (positive : 1 ≤ a) (lower : a < r.amount) : Move s (handOnChange { fell := true } (changeAmount i r a s))
  | grow {i : SlotId} {r : Record} {a : Nat} (record : (s.slot i).record = some r) (active : r.isActive = true)
      (higher : r.amount < a) (most : a ≤ 2500) (passes : firstFailure (growthTests r a s) = none) :
      Move s (grow i r a s)
  | accept {i : SlotId} {r : Record} {n : Notice} (record : (s.slot i).record = some r)
      (noticed : r.notice? = some n) (positive : n.required ≠ 0) :
      Move s (handOnChange { resolved := true, fell := true } (acceptNotice i n.required s))
  | renew {i : SlotId} {r : Record} {powered : Bool} {lease : Option Tick} {notice : Option Notice} {len : Nat}
      (record : (s.slot i).record = some r) (live : r.phase = .live powered lease notice)
      (leased : r.kind = .leased len) :
      Move s (s.setRecord i { r with phase := .live powered (some (deadlineIn len s)) notice })
  | extend {i : SlotId} {r : Record} {powered : Bool} {lease : Option Tick} {n : Notice}
      (record : (s.slot i).record = some r) (live : r.phase = .live powered lease (some n))
      (below : n.busy < s.settings.busyLimit) :
      Move s (s.setRecord i { r with phase := .live powered lease (some (n.extended s)) })
  | deliver {i : SlotId} {r : Record} {c : ClientId} {rest : List SlotId}
      (head : (s.client c).notices = i :: rest) (record : (s.slot i).record = some r) : Move s (deliver i r s)
  | openSession {d : ClientId} {quota : Half} {limit best attention : Byte} (plain : d ≠ 0)
      (closed : (s.client d).isOpen = false) :
      Move s (s.setClient d ((s.client d).opened quota limit best attention))
  | closeSession {d : ClientId} (plain : d ≠ 0) : Move s (closeEntry d s)
  | setting {g : Settings} (walks : Bool) (ranges : s.settings.Within → g.Within)
      (tiers : g.tierBudget[s.selected] = s.settings.tierBudget[s.selected])
      (cap : g.budgetCap = s.settings.budgetCap) : Move s (handOn false walks { s with settings := g })
  | budget {g : Settings} (ranges : s.settings.Within → g.Within) : Move s (rebudget { s with settings := g })
  | start (config : s.mode = .config) : Move s (started s)
  | hold (run : s.mode = .run) : Move s { s with mode := .hold }
  | resume (hold : s.mode = .hold) : Move s (walk (resumed s))
  | safe : Move s (safeEntry s)
  | restart : Move s (restartPart s)
  | channel {n : ChannelId} {y : Channel} (write : ChannelWrite s n y) : Move s (s.setChannel n y)
  | cool {n : ChannelId} (faulted : (s.channel n).state = .faulted) : Move s (walk (cooledDown n s))
  | fault {n : ChannelId} (cause : Cause) (drives : (s.channel n).state.drives = true) : Move s (fault n cause s)
  | comeUp {n : ChannelId} (starting : (s.channel n).state = .starting) : Move s (comeUp n s)
  | settle : Move s (rebudget (selectTier (s.pendingTier.getD s.selected) s))
  | lineChange (v : Tier) : Move s (takeLineChange v s)

/-- A chain of changes. -/
def Moves (s t : State) : Prop := Relation.ReflTransGen Move s t

theorem Moves.refl : Moves s s := Relation.ReflTransGen.refl

theorem Moves.trans (a : Moves s t) (b : Moves t u) : Moves s u := Relation.ReflTransGen.trans a b

theorem Moves.of_move (h : Move s t) : Moves s t := Relation.ReflTransGen.single h

/-- An invariant that every change keeps is kept by a chain of changes. -/
theorem Moves.keeps {P : State → Prop} (h : Moves s t) (hs : P s) (step : ∀ s t, Move s t → P s → P t) : P t := by
  induction h with
  | refl => exact hs
  | tail _ move ih => exact step _ _ move ih

/-! ## The port units -/

theorem saturate_le {n : Nat} (h : n ≤ 255) : saturate n ≤ 255 := by
  unfold saturate
  split <;> omega

theorem PortsOk.port (h : PortsOk s) : ∀ p, PortOk (s.port p)
  | .client => h.1
  | .management => h.2

theorem PortsOk.setPort {x : PortUnit} (h : PortsOk s) (ok : PortOk x) : PortsOk (s.setPort p x) := by
  cases p
  · exact ⟨ok, h.2⟩
  · exact ⟨h.1, ok⟩

section
variable {x : PortUnit}

theorem PortOk.signalled (h : PortOk x) (shifted : List Byte) (acked : Nat) :
    PortOk { x with shifted := shifted, acked := acked } := { h with }

theorem PortOk.clearCounts (h : PortOk x) : PortOk x.clearCounts :=
  { h with rejected := Nat.zero_le _, overruns := Nat.zero_le _ }

theorem PortOk.countRejected (h : PortOk x) : PortOk { x with rejected := saturate x.rejected } :=
  { h with rejected := saturate_le h.rejected }

theorem PortOk.overtakenBy (h : PortOk x) (d : ClientId) (s : State) : PortOk (x.overtakenBy d s) := by
  refine { h with lost := fun lost => ?_ }
  obtain before | now := Bool.or_eq_true_iff.1 lost
  · exact h.lost before
  · obtain ⟨y, found, -⟩ := Option.any_eq_true .. |>.1 now
    rw [show (x.overtakenBy d s).handed = x.handed from rfl, found]
    rfl

/-- The claim of the command in flight has been taken. -/
theorem PortOk.replied {i : Instr} (h : PortOk x) (handed : x.handed = some i) (a : Reply) :
    PortOk { x with handed := none, overtaken := false, reply := some a } where
  buffer := h.buffer
  overrun := h.overrun
  handed := nofun
  lost := nofun
  reply _ := h.handed (by rw [handed]; rfl)
  flight _ := rfl
  rejected := h.rejected
  overruns := h.overruns

theorem responseFrame_ne_nil (a : Reply) (echo : Byte × Byte) (overrun : Bool) : responseFrame a echo overrun ≠ [] := by
  simp [responseFrame]

theorem PortOk.refused (h : PortOk x) (e : Result) (bytes : List Byte) :
    PortOk { x with state := .ready, buffer := responseFrame { result := e } (echoOf bytes) false, overrun := false,
                    rejected := saturate x.rejected, handed := none, overtaken := false, reply := none } where
  buffer := by simp [responseFrame_ne_nil]
  overrun := nofun
  handed := nofun
  lost := nofun
  reply := nofun
  flight := nofun
  rejected := saturate_le h.rejected
  overruns := h.overruns

theorem PortOk.accepted (h : PortOk x) (i : Instr) (bytes : List Byte) :
    PortOk { x with state := .executing, buffer := [], overrun := false, handed := some i, overtaken := false,
                    reply := none, echo := echoOf bytes } where
  buffer := by simp
  overrun := nofun
  handed _ := rfl
  lost := nofun
  reply := nofun
  flight _ := rfl
  rejected := h.rejected
  overruns := h.overruns

theorem PortOk.overrunWritten (h : PortOk x) (executing : x.state = .executing) :
    PortOk { x with overrun := true, overruns := saturate x.overruns } :=
  { h with overrun := fun _ => executing, overruns := saturate_le h.overruns }

theorem PortOk.afterRead (h : PortOk x) (count : Nat) : PortOk (x.afterRead count) := by
  unfold PortUnit.afterRead
  split
  · next ready =>
    obtain ⟨ready, -⟩ := ready
    have still : x.state ≠ .executing := by rw [ready]; nofun
    refine { h with buffer := by simp, overrun := fun e => absurd (h.overrun e) still,
                    handed := fun e => absurd (h.handed e) still, reply := fun e => absurd (h.reply e) still,
                    flight := nofun }
  · exact h

theorem PortOk.placed (h : PortOk x) (taken : x.handed = none) (a : Reply) :
    PortOk { x with state := .ready, buffer := responseFrame a x.echo x.overrun, overrun := false, reply := none } where
  buffer := by simp [responseFrame_ne_nil]
  overrun := nofun
  handed e := by simp [taken] at e
  lost := h.lost
  reply := nofun
  flight := nofun
  rejected := h.rejected
  overruns := h.overruns

end

/-! ## Changes beside the table -/

theorem Moves.aside (h : Aside s t) : Moves s t := .of_move (.aside h)

theorem Aside.setPort {p : PortId} {x : PortUnit} {s : State} (ok : PortOk (s.port p) → PortOk x) :
    Aside s (s.setPort p x) := by
  constructor
  case ports => exact fun h => h.setPort (ok (h.port p))
  all_goals simp

/-- A change beside the table that leaves the ports alone. -/
theorem Aside.raise (f : EventFlag) (s : State) : Aside s (Machine.raise f s) := by
  constructor
  case ports => exact id
  all_goals rfl

theorem Aside.driveLines (s : State) : Aside s (Machine.driveLines s) := by
  constructor
  case ports => exact id
  all_goals rfl

theorem Aside.nextOrder (s : State) : Aside s (Machine.nextOrder s) := by
  constructor
  case ports => exact id
  all_goals rfl

/-- Writing the SAFE_N levels and the mark of a safe entry that a reset has left due. -/
theorem Aside.safeLevels (held due pin : Bool) (s : State) :
    Aside s { s with safeHeld := held, resetSafe := due, safePin := pin } := by
  constructor
  case ports => exact id
  all_goals rfl

theorem Aside.overtake (d : ClientId) (s : State) : Aside s (Machine.overtake d s) := by
  constructor
  case ports => exact fun h => ⟨h.1.overtakenBy d s, h.2.overtakenBy d s⟩
  all_goals rfl

theorem Aside.signal (p : PortId) (bus : Bus) (written : Nat) (out : List Byte) (s : State) :
    Aside s (Machine.signal p bus written out s) := .setPort fun h => h.signalled _ _

theorem Aside.response (a : Option (PortId × Reply)) (s : State) : Aside s { s with response := a } := by
  constructor
  case ports => exact id
  all_goals rfl

theorem Aside.clearNamed (named : BitVec 7) (s : State) : Aside s (Machine.clearNamed named s) := by
  unfold Machine.clearNamed
  dsimp only
  split
  all_goals constructor
  case isTrue.ports => exact fun h => ⟨h.1.clearCounts, h.2.clearCounts⟩
  case isFalse.ports => exact id
  all_goals rfl

theorem Moves.respond (p : PortId) (i : Instr) (a : Reply) (s : State) : Moves s (Machine.respond p i a s) := by
  unfold Machine.respond
  dsimp only
  split
  · next handed =>
    exact (Moves.aside (.response _ s)).trans (.aside (.setPort fun h => PortOk.replied (by exact h) (by exact handed) a))
  · exact .aside (.response _ s)

theorem Moves.resetEntry (s : State) : Moves s (Machine.resetEntry s) := by
  unfold Machine.resetEntry
  split
  · exact (Moves.aside (.safeLevels s.safeHeld false s.safePin s)).trans (Moves.of_move .safe)
  · exact .refl

/-! ## Check orders -/

/-- A check order passes where every check of it does. -/
theorem firstFailure_eq_none {l : List (Bool × Result)} : firstFailure l = none ↔ ∀ x ∈ l, x.1 = true := by
  induction l with
  | nil => simp [firstFailure]
  | cons x rest ih =>
    obtain ⟨ok, e⟩ := x
    cases ok <;> simp [firstFailure, ih]

/-- A command that its check order refuses changes nothing; else its action is taken with every check passed. -/
theorem checked_moves {checks : State → List (Bool × Result)} {f : State → State × Reply}
    (h : (∀ x ∈ checks s, x.1 = true) → Moves s (f s).1) : Moves s (checked checks f s).1 := by
  unfold checked
  split
  · exact .refl
  · next passes => exact h (firstFailure_eq_none.1 passes)

theorem record_of_named {h : Half} {j : SlotId} {r : Record} (e : named h s = some (j, r)) :
    (s.slot j).record = some r := by
  unfold named at e
  dsimp only at e
  split at e
  · obtain ⟨x, hx, e⟩ := Option.map_eq_some_iff.1 e
    cases e
    exact hx
  · cases e

/-- What the checks of R4 have found: a record, every check before it passed. -/
theorem namedRecord_found {pre : List (Bool × Result)} {ok : Bool} {h : Half} {mayName : Record → Bool} {j : SlotId}
    {r : Record} (e : namedRecord pre ok h mayName s = .ok (j, r)) :
    (s.slot j).record = some r ∧ (∀ x ∈ pre, x.1 = true) ∧ ok = true := by
  unfold namedRecord at e
  split at e
  · cases e
  · next passes =>
    have all := firstFailure_eq_none.1 passes
    split at e
    · cases e
    · next i q found =>
      split at e
      · cases e
        refine ⟨record_of_named found, fun x hx => all x (by simp [hx]), ?_⟩
        have := all (handleOk h && ok, .range) (by simp)
        simp only [Bool.and_eq_true] at this
        exact this.2
      · cases e

theorem changeRecord_found {k : Instr} {h : Half} {ok : Bool} {j : SlotId} {r : Record}
    (e : changeRecord k p c h ok s = .ok (j, r)) : (s.slot j).record = some r ∧ ok = true := by
  obtain ⟨_, _, _, same⟩ | ⟨_, same⟩ := changeRecord_cases k p c h ok s
  all_goals
    rw [same] at e
    exact ⟨(namedRecord_found e).1, (namedRecord_found e).2.2⟩

end Sys2Proof.Machine
end

section
/-! PROOF. The rows as chains of changes: every command and event but the tick and the resets is a chain of
`Move`s. A tick is such a chain and then the counter's advance; a reset is the release of reset. -/

namespace Sys2Proof.Machine

variable {s t u : State} {p : PortId} {c : ClientId} {i : Instr} {h : Half} {n : ChannelId}

/-! ## The commands that change grants -/

theorem requestPasses_of_checks {a : Ask} (all : ∀ x ∈ requestChecks c a s, x.1 = true) : RequestPasses c a s := by
  simp only [requestChecks, List.mem_cons, List.not_mem_nil, or_false, forall_eq_or_imp, forall_eq,
    decide_eq_true_eq] at all
  obtain ⟨rights, available, ceiling, quota, limit, -⟩ := all
  exact ⟨rights, available, ceiling, quota, limit⟩

/-- A client command whose port, session and controller state tests have passed. -/
theorem open_of_clientChecks {m : Bool} (all : ∀ x ∈ clientChecks p c m s, x.1 = true) :
    (s.client c).isOpen = true ∧ m = true := by
  simp only [clientChecks, List.mem_cons, List.not_mem_nil, or_false, forall_eq_or_imp, forall_eq] at all
  exact all.2

theorem decideRequest_moves {a : Ask} {j : SlotId} (can : CanRequest c a j s) :
    Moves s (decideRequest j c a s).1 := by
  unfold decideRequest
  split
  · next fits => exact .of_move (.enter can ((fitsNow_iff a s).1 fits))
  · split
    · exact .refl
    · split
      · exact .refl
      · next room => exact .of_move (.queue can (by omega))

theorem requestAct_moves (p : PortId) (c : ClientId) (channel : Byte) (amount : Half) (cls flags : Byte) (lease : Quad)
    (floor timeout tag : Half) (s : State) :
    Moves s (requestAct p c (askOf channel amount cls flags lease floor timeout tag) s).1 := by
  unfold requestAct
  split
  · exact .refl
  · exact .refl
  · next a passes asks =>
    split
    · exact .refl
    · exact .refl
    · next j checks free =>
      obtain ⟨session, serves⟩ := open_of_clientChecks (firstFailure_eq_none.1 passes)
      exact decideRequest_moves ⟨session, serves, requestPasses_of_checks (firstFailure_eq_none.1 checks), free,
        _, _, _, _, _, _, _, _, asks⟩

theorem releaseAct_moves (p : PortId) (c : ClientId) (h : Half) (s : State) : Moves s (releaseAct p c h s).1 := by
  unfold releaseAct
  split
  · exact .refl
  · next found =>
    split
    · exact .refl
    · next standing => exact .of_move (.free (namedRecord_found found).1 (by simpa using standing))

theorem growChecks_pass {r : Record} {a : Nat} (passes : firstFailure (growChecks r a s) = none) :
    firstFailure (growthTests r a s) = none := by rwa [← growChecks_eq]

theorem resizeAct_moves (p : PortId) (c : ClientId) (h amount : Half) (s : State) :
    Moves s (resizeAct p c h amount s).1 := by
  unfold resizeAct
  dsimp only
  split
  · exact .refl
  · next j r found =>
    obtain ⟨record, inRange⟩ := changeRecord_found found
    have bounds : 1 ≤ amount.toNat ∧ amount.toNat ≤ 2500 := by simpa [within_eq] using inRange
    split
    · exact .refl
    · next active =>
      have active : r.isActive = true := by simpa using active
      split
      · exact .refl
      · next differs =>
        split
        · next lower => exact .of_move (.shrink record active bounds.1 lower)
        · refine checked_moves fun all => .of_move (.grow record active (by omega) bounds.2 ?_)
          exact growChecks_pass (firstFailure_eq_none.2 all)

theorem renewAct_moves (p : PortId) (c : ClientId) (h : Half) (s : State) : Moves s (renewAct p c h s).1 := by
  unfold renewAct
  split
  · exact .refl
  · next found =>
    split
    · next live leased => exact .of_move (.renew (changeRecord_found found).1 live leased)
    · exact .refl

theorem Record.not_retired_of_notice {r : Record} {n : Notice} (noticed : r.notice? = some n) : r.isRetired = false := by
  obtain ⟨_, _, e⟩ := Record.phase_of_notice noticed
  simp [Record.isRetired, e]

/-- An answer that revokes frees the NOTICED record (R91, R92). -/
theorem revoke_moves {j : SlotId} {r : Record} {n : Notice} (record : (s.slot j).record = some r)
    (noticed : r.notice? = some n) : Moves s (revoke j r s).1 :=
  .of_move (.free record (Record.not_retired_of_notice noticed))

theorem extend_moves {j : SlotId} {r : Record} {n : Notice} (record : (s.slot j).record = some r)
    (noticed : r.notice? = some n) (below : n.busy < s.settings.busyLimit) : Moves s (extend j r n s).1 := by
  obtain ⟨powered, lease, live⟩ := Record.phase_of_notice noticed
  simp only [Machine.extend, live]
  exact .of_move (.extend record live below)

theorem answerNotice_moves (k : AnswerKind) {j : SlotId} {r : Record} {n : Notice}
    (record : (s.slot j).record = some r) (noticed : r.notice? = some n) :
    Moves s (answerNotice k j r n s).1 := by
  cases k with
  | ack =>
    unfold answerNotice
    dsimp only
    split
    · exact revoke_moves record noticed
    · next positive => exact .of_move (.accept record noticed positive)
  | nak => exact revoke_moves record noticed
  | busy =>
    unfold answerNotice
    dsimp only
    split
    · next below => exact extend_moves record noticed below
    · exact revoke_moves record noticed

theorem answerAct_moves (k : AnswerKind) (ok : Bool) (p : PortId) (c : ClientId) (h : Half) (s : State) :
    Moves s (answerAct k ok p c h s).1 := by
  unfold answerAct
  split
  · exact .refl
  · next found =>
    split
    · next live => exact answerNotice_moves k (namedRecord_found found).1 (by simp [Record.notice?, live])
    · exact .refl
    · exact .refl

theorem forceRetireAct_moves (p : PortId) (c : ClientId) (h : Half) (s : State) :
    Moves s (forceRetireAct p c h s).1 := by
  unfold forceRetireAct
  split
  · exact .refl
  · next found =>
    split
    · exact .refl
    · next standing => exact .of_move (.retire .forced (namedRecord_found found).1 (by simpa using standing))

/-! ## The commands that return views -/

theorem queryAct_moves (p : PortId) (c : ClientId) (h : Half) (s : State) : Moves s (queryAct p c h s).1 := by
  unfold queryAct
  split <;> exact .refl

theorem nextNoticeAct_moves (p : PortId) (c : ClientId) (s : State) : Moves s (nextNoticeAct p c s).1 := by
  refine checked_moves fun _ => ?_
  split
  · exact .refl
  · next head =>
    split
    · next record => exact .of_move (.deliver head record)
    · exact .refl

theorem readSettingAct_moves (p : PortId) (c : ClientId) (key index : Byte) (s : State) :
    Moves s (readSettingAct p c key index s).1 := by
  unfold readSettingAct
  split
  · exact .refl
  · split
    · exact .refl
    · split <;> exact .refl

/-! ## Settings -/

theorem channelFree_of_channelEmpty (h : channelEmpty n s = true) : ChannelFree n s where
  state := by
    unfold channelEmpty at h
    split at h <;> simp_all
  records j r record here := by
    simp only [channelEmpty, Bool.and_eq_true, List.isEmpty_iff] at h
    have member : j ∈ slotsWhere (fun r => decide (r.channel = n)) s := by simp [record, here]
    simp [h.2] at member

theorem handOn_none (s : State) : handOn false false s = s := by
  unfold handOn
  cases e : s.shed <;> simp [e]

/-- A write of a setting that neither the effective budget nor a walk depends on. -/
theorem setting_moves {g : Settings} (ranges : s.settings.Within → g.Within)
    (tiers : g.tierBudget[s.selected] = s.settings.tierBudget[s.selected])
    (cap : g.budgetCap = s.settings.budgetCap) : Moves s { s with settings := g } := by
  have move := Move.setting (s := s) false ranges tiers cap
  rw [handOn_none] at move
  exact .of_move move

theorem writeChannelKey_eq (k : ChannelKey) (n : ChannelId) (v : Nat) (s : State) :
    writeChannelKey k n v s = s.setChannel n ((s.channel n).keyWritten k v) := rfl

theorem tierBudget_within {g : Settings} (within : g.Within) (k : Tier) {v : Nat} (most : v ≤ 20000) :
    ({ g with tierBudget := g.tierBudget.set k v } : Settings).Within := by
  refine { within with tierBudget := fun j => ?_ }
  have := within.tierBudget j
  simp only [Fin.getElem_fin] at this ⊢
  rw [Vector.getElem_set]
  split
  · exact most
  · exact this

/-- An accepted write, with its effect (R46, R47, R51, R93, R109, R158). -/
theorem writeKey_moves (k : SettingKey) (index : Byte) (v : Nat) (inRange : valueOk k v = true)
    (empty : targetEmpty k index s = true) : Moves s (writeKey k index v s) := by
  cases k with
  | tierBudget =>
    have most : v ≤ 20000 := by simpa [valueOk, within_eq] using inRange
    have ranges (w : s.settings.Within) := tierBudget_within w (tierOf index) most
    unfold writeKey
    dsimp only
    split
    · exact .of_move (.budget ranges)
    · next other =>
      refine setting_moves ranges ?_ rfl
      have apart : (tierOf index).val ≠ s.selected.val := fun e => other (Fin.ext e)
      simp only [Fin.getElem_fin]
      exact Vector.getElem_set_ne _ _ apart
  | budgetCap =>
    refine .of_move (.budget fun w => { w with budgetCap := ?_ })
    simpa [valueOk, within_eq] using inRange
  | reserve0 =>
    refine .of_move (.setting _ (fun w => { w with reserve0 := ?_ }) rfl rfl)
    simpa [valueOk, within_eq] using inRange
  | tierSettle =>
    refine setting_moves (fun w => { w with tierSettle := ?_ }) rfl rfl
    simpa [valueOk, within_eq] using inRange
  | noticeTime =>
    refine setting_moves (fun w => { w with noticeTime := ?_ }) rfl rfl
    simpa [valueOk, within_eq] using inRange
  | busyLimit =>
    refine setting_moves (fun w => { w with busyLimit := ?_ }) rfl rfl
    simpa [valueOk, within_eq] using inRange
  | eventMask => exact setting_moves (fun w => { w with }) rfl rfl
  | channel k =>
    exact .of_move (.channel (.key k v inRange (channelFree_of_channelEmpty empty)))

theorem writeAct_moves (p : PortId) (c : ClientId) (key index : Byte) (value : Half) (s : State) :
    Moves s (writeAct p c key index value s).1 := by
  unfold writeAct
  split
  · exact .refl
  · split
    · exact .refl
    · refine checked_moves fun all => ?_
      simp only [writeChecks, List.mem_cons, List.not_mem_nil, or_false, forall_eq_or_imp, forall_eq,
        Bool.and_eq_true] at all
      obtain ⟨-, ⟨-, inRange⟩, empty⟩ := all
      exact writeKey_moves _ index value.toNat inRange empty

/-! ## Sessions, controller states, channels and flags -/

/-- The client field of OPEN_CLIENT and CLOSE_CLIENT never names client 0 (R130). -/
theorem clientOf_ne_zero {b : Byte} (ok : sessionFieldOk b = true) : clientOf b ≠ 0 := by
  have bounds : 1 ≤ b.toNat ∧ b.toNat ≤ 15 := by simpa [sessionFieldOk, within_eq] using ok
  intro e
  have := congrArg Fin.val e
  simp only [clientOf, Fin.ofNat, Fin.val_zero] at this
  omega

theorem openClientAct_moves (p : PortId) (c : ClientId) (client : Byte) (quota : Half) (limit best attention : Byte)
    (s : State) : Moves s (openClientAct p c client quota limit best attention s).1 := by
  refine checked_moves fun all => ?_
  simp only [List.mem_cons, List.not_mem_nil, or_false, forall_eq_or_imp, forall_eq, Bool.and_eq_true,
    Bool.not_eq_true'] at all
  obtain ⟨-, -, ⟨field, -⟩, closed⟩ := all
  exact .of_move (.openSession (clientOf_ne_zero field) closed)

theorem closeClientAct_moves (p : PortId) (c : ClientId) (client : Byte) (s : State) :
    Moves s (closeClientAct p c client s).1 := by
  refine checked_moves fun all => ?_
  have field : sessionFieldOk client = true := all (sessionFieldOk client, .range) (by simp)
  exact (Moves.aside (.overtake _ s)).trans (.of_move (.closeSession (clientOf_ne_zero field)))

/-- The controller state that START, HOLD and RESUME need. -/
theorem mode_of_checks {m : Mode} :
    ((∀ x ∈ startMode m, x.1 = true) → m = .config) ∧ ((∀ x ∈ holdMode m, x.1 = true) → m = .run) ∧
      ((∀ x ∈ resumeMode m, x.1 = true) → m = .hold) := by
  cases m <;> simp [startMode, holdMode, resumeMode]

theorem startAct_moves (p : PortId) (c : ClientId) (s : State) : Moves s (startAct p c s).1 :=
  checked_moves fun all => .of_move (.start (mode_of_checks.1 fun x hx => all x (by simp [hx])))

theorem holdAct_moves (p : PortId) (c : ClientId) (s : State) : Moves s (holdAct p c s).1 :=
  checked_moves fun all => .of_move (.hold (mode_of_checks.2.1 fun x hx => all x (by simp [hx])))

theorem resumeAct_moves (p : PortId) (c : ClientId) (s : State) : Moves s (resumeAct p c s).1 :=
  checked_moves fun all => .of_move (.resume (mode_of_checks.2.2 fun x hx => all x (by simp [hx])))

theorem unlockAct_moves (p : PortId) (c : ClientId) (channel : Byte) (s : State) :
    Moves s (unlockAct p c channel s).1 := by
  refine checked_moves fun all => ?_
  have locked : (s.channel (channelOf channel)).state = .locked := by
    simpa using all (decide ((s.channel (channelOf channel)).state = .locked), .badState) (by simp)
  exact .of_move (.channel (.unlock locked))

/-! ## Expiries -/

theorem takeLease_moves (j : SlotId) (s : State) : Moves s (takeLease j s) := by
  unfold takeLease
  split
  · next record =>
    split
    · next live =>
      split
      · exact .of_move (.retire _ record (by simp [Record.isRetired, live]))
      · exact .refl
    · exact .refl
  · exact .refl

theorem takeWait_moves (j : SlotId) (s : State) : Moves s (takeWait j s) := by
  unfold takeWait
  split
  · next record =>
    split
    · next queued =>
      split
      · exact .of_move (.retire _ record (by simp [Record.isRetired, queued]))
      · exact .refl
    · exact .refl
  · exact .refl

theorem takeNotice_moves (j : SlotId) (s : State) : Moves s (takeNotice j s) := by
  unfold takeNotice
  split
  · next record =>
    split
    · next live =>
      split
      · exact .of_move (.retire _ record (by simp [Record.isRetired, live]))
      · exact .refl
    · exact .refl
  · exact .refl

theorem takeStart_moves (n : ChannelId) (s : State) : Moves s (takeStart n s) := by
  unfold takeStart
  split
  · next due =>
    simp only [Bool.and_eq_true, decide_eq_true_eq] at due
    exact .of_move (.fault _ (by simp [due.2, ChannelState.drives]))
  · exact .refl

theorem takeDischarge_moves (n : ChannelId) (s : State) : Moves s (takeDischarge n s) := by
  unfold takeDischarge
  dsimp only
  split
  · next due =>
    simp only [Bool.and_eq_true, decide_eq_true_eq] at due
    exact .of_move (.channel (.discharged due.2))
  · exact .refl

theorem handOn_walk (s : State) : handOn false true s = walk s := by simp [handOn]

theorem takeCooldown_moves (n : ChannelId) (s : State) : Moves s (takeCooldown n s) := by
  unfold takeCooldown
  dsimp only
  split
  · next due =>
    simp only [Bool.and_eq_true, decide_eq_true_eq] at due
    rw [handOn_walk]
    exact .of_move (.cool due.2)
  · exact .refl

theorem takeClean_moves (n : ChannelId) (s : State) : Moves s (takeClean n s) := by
  unfold takeClean
  dsimp only
  split
  · next due =>
    simp only [Bool.and_eq_true, decide_eq_true_eq] at due
    exact .of_move (.channel (.clean due.2))
  · exact .refl

theorem takeSettle_moves (s : State) : Moves s (takeSettle s) := by
  unfold takeSettle
  split
  · split
    · exact .of_move .settle
    · exact .refl
  · exact .refl

theorem takePlace_moves (q : Place) (s : State) : Moves s (takePlace q s) := by
  cases q with
  | lease j => exact takeLease_moves j s
  | wait j => exact takeWait_moves j s
  | notice j => exact takeNotice_moves j s
  | channel n =>
    exact (((takeStart_moves n s).trans (takeDischarge_moves n _)).trans (takeCooldown_moves n _)).trans
      (takeClean_moves n _)
  | settle => exact takeSettle_moves s

theorem takePlaces_moves (l : List Place) (s : State) : Moves s (takePlaces l s) := by
  induction l generalizing s with
  | nil => exact .refl
  | cons q rest ih => exact (takePlace_moves q s).trans (ih _)

theorem takeDue_moves (s : State) : Moves s (takeDue s) := by
  unfold takeDue
  split
  · exact .refl
  · exact ((Moves.resetEntry s).trans (takePlaces_moves _ _)).trans (.aside (.nextOrder _))

/-! ## Lines -/

theorem faultIn_moves {takes : ChannelState → Bool} (cause : Cause) (n : ChannelId) (s : State)
    (only : ∀ st, takes st = true → st.drives = true) : Moves s (faultIn takes n cause s) := by
  unfold faultIn
  split
  · next taken => exact .of_move (.fault cause (only _ taken))
  · exact .refl

theorem comeUp_moves (n : ChannelId) (s : State) : Moves s (comeUp n s) := by
  by_cases starting : (s.channel n).state = .starting
  · exact .of_move (.comeUp starting)
  · simp only [comeUp, starting, if_false]
    exact .refl

theorem setPg_moves (n : ChannelId) (level : Bool) (s : State) : Moves s (setPg n level s) :=
  .of_move (.channel (.level level (s.channel n).fltN (s.channel n).sampled))

theorem setFlt_moves (n : ChannelId) (level : Bool) (s : State) : Moves s (setFlt n level s) :=
  .of_move (.channel (.level (s.channel n).pg level (s.channel n).sampled))

theorem takeSampled_moves (n : ChannelId) (s : State) : Moves s (takeSampled n s) := by
  have cleared : Moves s (s.setChannel n { s.channel n with sampled := none }) :=
    .of_move (.channel (.level (s.channel n).pg (s.channel n).fltN none))
  unfold takeSampled
  dsimp only
  split
  · exact cleared.trans (faultIn_moves _ n _ fun _ => id)
  · exact cleared.trans (comeUp_moves n _)
  · exact .refl

theorem takeSafeFall_moves (s : State) : Moves s (takeSafeFall s) := by
  have levels : Moves s { s with safeHeld := false, safePin := false } :=
    .aside (.safeLevels false s.resetSafe false s)
  unfold takeSafeFall
  dsimp only
  split
  · exact levels
  · exact levels.trans (Moves.of_move .safe)

/-! ## How a row moves the part -/

/-- An outcome whose next state is a chain of changes away. -/
def OutMoves (s : State) (o : Out) : Prop := ∀ t, o = .next t → Moves s t

theorem OutMoves.next (h : Moves s t) : OutMoves s (.next t) := by
  rintro _ ⟨⟩
  exact h

theorem OutMoves.command {f : State → State × Reply} (acts : ∀ s, Moves s (f s).1) (p : PortId) (i : Instr) (s : State) :
    OutMoves s (Machine.command p i f s) :=
  .next ((((Moves.resetEntry s).trans (acts _)).trans (.respond ..)).trans (.aside (.driveLines _)))

theorem OutMoves.claim {f : State → State} (acts : ∀ s, Moves s (f s)) (s : State) :
    OutMoves s (Machine.claim f s) :=
  .next (((Moves.resetEntry s).trans (acts _)).trans (.aside (.driveLines _)))

theorem OutMoves.claimWhen {f : State → State} (b : Bool) (acts : ∀ s, Moves s (f s)) (s : State) :
    OutMoves s (Machine.claimWhen b f s) := by
  unfold Machine.claimWhen
  split
  · exact .claim acts s
  · exact .next .refl

theorem OutMoves.lineEvent {takes : ChannelState → Bool} {level f : State → State} (levels : ∀ s, Moves s (level s))
    (acts : ∀ s, Moves s (f s)) (n : ChannelId) (s : State) : OutMoves s (Machine.lineEvent takes level f n s) := by
  obtain ⟨-, e⟩ | ⟨-, e⟩ := lineEvent_cases takes level f n s <;> rw [e]
  · exact .claim (fun s => (levels s).trans (acts _)) s
  · exact .next (levels s)

theorem writeFrame_moves (p : PortId) (bytes : List Byte) (s : State) : Moves s (writeFrame p bytes s) := by
  have refused (e : Result) : Moves s (refuseFrame p e bytes s) :=
    (Moves.aside (.setPort fun h => h.refused e bytes)).trans (.aside (.raise _ _))
  unfold writeFrame
  split
  · next executing => exact (Moves.aside (.setPort fun h => h.overrunWritten executing)).trans (.aside (.raise _ _))
  · split
    · exact refused _
    · exact refused _
    · exact .aside (.setPort fun h => h.accepted _ bytes)

theorem OutMoves.execWriteTransaction (bus : Bus) (bytes : List Byte) (s : State) :
    OutMoves s (Machine.execWriteTransaction bus bytes s) := by
  unfold Machine.execWriteTransaction
  split
  · exact .next .refl
  · dsimp only
    split
    · exact .next (.aside (.signal ..))
    · exact .next (((writeFrame_moves _ bytes s).trans (.aside (.signal ..))).trans (.aside (.driveLines _)))

theorem OutMoves.execReadTransaction (bus : Bus) (count : Nat) (s : State) :
    OutMoves s (Machine.execReadTransaction bus count s) := by
  unfold Machine.execReadTransaction
  split
  · exact .next .refl
  · exact .next ((Moves.aside (.setPort fun h => h.afterRead count)).trans (.aside (.signal ..)))

theorem OutMoves.execDirectionByteRefused (direction : Byte) (count : Nat) (s : State) :
    OutMoves s (Machine.execDirectionByteRefused direction count s) := by
  unfold Machine.execDirectionByteRefused
  split
  · exact .next .refl
  · exact .next ((((Moves.aside (.setPort PortOk.countRejected)).trans (.aside (.raise _ _))).trans (.aside (.signal ..))).trans
      (.aside (.driveLines _)))

theorem OutMoves.execResponsePlaced (p : PortId) (s : State) : OutMoves s (Machine.execResponsePlaced p s) := by
  unfold Machine.execResponsePlaced
  dsimp only
  split
  · next taken _ => exact .next (.aside (.setPort fun h => h.placed taken _))
  · exact .next .refl

/-- A row that is neither the tick nor a reset. -/
def Instr.isPlain : Instr → Bool
  | .tick | .powerOn _ | .pinReset _ => false
  | _ => true

/-- Every row but the tick and the two resets is a chain of changes. -/
theorem exec_moves (plain : Instr.isPlain i = true) (s : State) : OutMoves s (exec i s) := by
  cases i with
  | request p c channel amount cls flags lease floor timeout tag =>
    exact .command (requestAct_moves p c channel amount cls flags lease floor timeout tag) _ _ s
  | release p c h => exact .command (releaseAct_moves p c h) _ _ s
  | resize p c h amount => exact .command (resizeAct_moves p c h amount) _ _ s
  | renew p c h => exact .command (renewAct_moves p c h) _ _ s
  | answerAck p c h => exact .command (answerAct_moves .ack true p c h) _ _ s
  | answerNak p c h => exact .command (answerAct_moves .nak true p c h) _ _ s
  | answerBusy p c fields => exact .command (answerAct_moves .busy _ p c fields.handle) _ _ s
  | query p c h => exact .command (queryAct_moves p c h) _ _ s
  | list p c filters client channel first => exact .command (fun s => checked_moves fun _ => .refl) _ _ s
  | nextNotice p c => exact .command (nextNoticeAct_moves p c) _ _ s
  | clientStatus p c target => exact .command (fun s => checked_moves fun _ => .refl) _ _ s
  | openClient p c client quota limit best attention =>
    exact .command (openClientAct_moves p c client quota limit best attention) _ _ s
  | closeClient p c client => exact .command (closeClientAct_moves p c client) _ _ s
  | forceRetire p c h => exact .command (forceRetireAct_moves p c h) _ _ s
  | writeTierBudget p c index value | writeBudgetCap p c index value | writeReserve0 p c index value
  | writeEventMask p c index value | writeChEnable p c index value | writeSetting p c key index value =>
    exact .command (writeAct_moves p c _ index value) _ _ s
  | readSetting p c key index => exact .command (readSettingAct_moves p c key index) _ _ s
  | start p c => exact .command (startAct_moves p c) _ _ s
  | hold p c => exact .command (holdAct_moves p c) _ _ s
  | resume p c => exact .command (resumeAct_moves p c) _ _ s
  | enterSafe p c => exact .command (fun s => checked_moves fun _ => .of_move .safe) _ _ s
  | restart p c => exact .command (fun s => checked_moves fun _ => .of_move .restart) _ _ s
  | unlockChannel p c channel => exact .command (unlockAct_moves p c channel) _ _ s
  | readStatus p c | readChannel p c channel => exact .command (fun s => checked_moves fun _ => .refl) _ _ s
  | clearEvents p c flags =>
    exact .command (fun s => checked_moves fun _ => .aside (.clearNamed _ s)) _ _ s
  | writeTransaction bus bytes => exact .execWriteTransaction bus bytes s
  | readTransaction bus count => exact .execReadTransaction bus count s
  | directionByteRefused direction count => exact .execDirectionByteRefused direction count s
  | responsePlaced p => exact .execResponsePlaced p s
  | tick => cases plain
  | leaseExpiry slot => exact .claimWhen _ (takeLease_moves slot) s
  | waitExpiry slot => exact .claimWhen _ (takeWait_moves slot) s
  | noticeExpiry slot => exact .claimWhen _ (takeNotice_moves slot) s
  | startTimeout n => exact .claimWhen _ (takeStart_moves n) s
  | dischargeExpiry n => exact .claimWhen _ (takeDischarge_moves n) s
  | cooldownExpiry n => exact .claimWhen _ (takeCooldown_moves n) s
  | cleanExpiry n => exact .next (takeClean_moves n s)
  | settleExpiry => exact .claimWhen _ takeSettle_moves s
  | lineChange value => exact .next (.of_move (.lineChange value))
  | powerGood n => exact .lineEvent (takes := fun st => decide (st = .starting)) (setPg_moves n true) (comeUp_moves n) n s
  | powerLoss n =>
    exact .lineEvent (takes := fun st => decide (st = .on)) (setPg_moves n false)
      (fun s => faultIn_moves _ n s fun st on => by simp [of_decide_eq_true on, ChannelState.drives]) n s
  | trip n => exact .lineEvent (takes := ChannelState.drives) (setFlt_moves n false) (fun s => faultIn_moves _ n s fun _ => id) n s
  | fltRise n => exact .next (setFlt_moves n true s)
  | safeNFall => exact .claim takeSafeFall_moves s
  | safeNRise => exact .next (.aside (.safeLevels true s.resetSafe true s))
  | powerOn pins | pinReset pins => cases plain
  | resetSafeEntry => exact .claimWhen _ (fun _ => .refl) s
  | sampledLineEvent n => exact .claimWhen _ (takeSampled_moves n) s

/-- A row is a chain of changes, or the tick, which is a chain of changes and the counter's advance, or a reset. -/
theorem exec_cases (next : exec i s = .next t) :
    Moves s t ∨
    (i = .tick ∧ ∃ u, Moves s u ∧ t = driveLines { u with tick := u.tick + 1 }) ∨
    ∃ pins, (i = .powerOn pins ∨ i = .pinReset pins) ∧ t = atRelease pins s := by
  cases plain : Instr.isPlain i
  · cases i with
    | tick =>
      cases next
      exact .inr (.inl ⟨rfl, takeDue s, takeDue_moves s, rfl⟩)
    | powerOn pins =>
      cases next
      exact .inr (.inr ⟨pins, .inl rfl, rfl⟩)
    | pinReset pins =>
      cases next
      exact .inr (.inr ⟨pins, .inr rfl, rfl⟩)
    | _ => cases plain
  · exact .inl (exec_moves plain s t next)

/-- What every change, the counter's advance and the release of reset keep, every step keeps. `queue` says that the
sender's queue is no part of it. -/
theorem step_keeps {P : State → Prop} (queue : ∀ s l, P s → P { s with pending := l })
    (move : ∀ s t, Move s t → P s → P t)
    (tick : ∀ s, P s → P (driveLines { s with tick := s.tick + 1 }))
    (release : ∀ pins s, P s → P (atRelease pins s))
    (hs : P s) (next : step s = .next t) : P t := by
  unfold step at next
  split at next
  · cases next
    exact hs
  · next i rest _ =>
    have start := queue s rest hs
    obtain moves | ⟨-, u, moves, rfl⟩ | ⟨pins, -, rfl⟩ := exec_cases next
    · exact moves.keeps start move
    · exact tick u (moves.keeps start move)
    · exact release pins _ start

end Sys2Proof.Machine
end

section
/-! PROOF. The sums of R10, R16, R17 and R79, one by one as a `Figure`: how each change of a record moves each of them, and
that a change which moves each by the record's share keeps them all exact. -/

namespace Sys2Proof.Machine

variable {s t u : State} {i j : SlotId} {r r' : Record} {c : ClientId} {n : ChannelId} {g : Figure}

/-! ## Figures -/

/-- A sum or a count that the grant table or the shed engine keeps. -/
inductive Figure where
  | committed | relief
  | sum (n : ChannelId) | live (n : ChannelId) | queued (n : ChannelId)
  | client (c : ClientId) | held (c : ClientId) | occupied (c : ClientId)

/-- The figure as it is stored. -/
def Figure.of (s : State) : Figure → Nat
  | .committed => s.committed
  | .relief => s.relief
  | .sum n => (s.channel n).sum
  | .live n => (s.channel n).live
  | .queued n => (s.channel n).queued
  | .client c => (s.client c).committed
  | .held c => (s.client c).held
  | .occupied c => (s.client c).occupied

/-- The share of a record in the figure. -/
def Figure.weight (r : Record) : Figure → Nat
  | .committed => r.liveAmount
  | .relief => r.reliefAmount
  | .sum n => only (decide (r.channel = n)) r.liveAmount
  | .live n => only (decide (r.channel = n) && r.isLive) 1
  | .queued n => only (decide (r.channel = n) && r.isQueued) 1
  | .client c => only (decide (r.owner = c)) r.liveAmount
  | .held c => only (decide (r.owner = c)) r.heldAmount
  | .occupied c => only (decide (r.owner = c)) 1

/-- The share of a slot in the figure; a FREE slot has none. -/
def Figure.share (o : Option Record) (g : Figure) : Nat := (o.map g.weight).getD 0

@[simp] theorem Figure.share_none (g : Figure) : g.share none = 0 := rfl

@[simp] theorem Figure.share_some (g : Figure) (r : Record) : g.share (some r) = g.weight r := rfl

theorem sumsExact_iff : SumsExact s ↔ ∀ g : Figure, g.of s = sumOver (fun r => g.weight r) s := by
  refine ⟨fun h g => ?_, fun h => ⟨h .committed, h .relief, fun n => h (.sum n), fun n => h (.live n),
    fun n => h (.queued n), fun c => h (.client c), fun c => h (.held c), fun c => h (.occupied c)⟩⟩
  cases g with
  | committed => exact h.committed
  | relief => exact h.relief
  | sum n => exact h.sum n
  | live n => exact h.live n
  | queued n => exact h.queued n
  | client c => exact h.client c
  | held c => exact h.held c
  | occupied c => exact h.occupied c

/-! ## Sums over the table -/

theorem sumOver_eq (f : Record → Nat) (s : State) :
    sumOver f s = ∑ i : SlotId, ((s.slot i).record.map f).getD 0 := Fin.sum_univ_def _ |>.symm

/-- The share of one slot is part of the sum. -/
theorem le_sumOver (f : Record → Nat) (s : State) (i : SlotId) : ((s.slot i).record.map f).getD 0 ≤ sumOver f s := by
  rw [sumOver_eq]
  exact Finset.single_le_sum (f := fun i => ((s.slot i).record.map f).getD 0) (fun _ _ => Nat.zero_le _)
    (Finset.mem_univ i)

/-- A sum where the record of one slot changes. -/
theorem sumOver_change (f : Record → Nat) (others : ∀ j, j ≠ i → (t.slot j).record = (s.slot j).record) :
    sumOver f t + ((s.slot i).record.map f).getD 0 = sumOver f s + ((t.slot i).record.map f).getD 0 := by
  have same : ∑ j ∈ Finset.univ.erase i, ((t.slot j).record.map f).getD 0 =
      ∑ j ∈ Finset.univ.erase i, ((s.slot j).record.map f).getD 0 :=
    Finset.sum_congr rfl fun j hj => by rw [others j (Finset.ne_of_mem_erase hj)]
  rw [sumOver_eq, sumOver_eq, ← Finset.add_sum_erase _ _ (Finset.mem_univ i),
    ← Finset.add_sum_erase _ _ (Finset.mem_univ i), same]
  omega

theorem SumsExact.share_le (h : SumsExact s) (g : Figure) (i : SlotId) : g.share (s.slot i).record ≤ g.of s := by
  rw [sumsExact_iff.1 h g]
  exact le_sumOver (fun r => g.weight r) s i

theorem SumsExact.weight_le (h : SumsExact s) (record : (s.slot i).record = some r) (g : Figure) :
    g.weight r ≤ g.of s := by
  have := h.share_le g i
  rwa [record] at this

/-- The figures stay exact where one slot changes and each moves by the difference of its shares. -/
theorem SumsExact.change (h : SumsExact s) (others : ∀ j, j ≠ i → (t.slot j).record = (s.slot j).record)
    (figures : ∀ g : Figure, g.share (s.slot i).record ≤ g.of s →
      g.of t + g.share (s.slot i).record = g.of s + g.share (t.slot i).record) : SumsExact t := by
  refine sumsExact_iff.2 fun g => ?_
  have exact' := sumsExact_iff.1 h g
  have moved := figures g (h.share_le g i)
  have total : _ + g.share (s.slot i).record = _ + g.share (t.slot i).record :=
    sumOver_change (fun r => g.weight r) others
  omega

/-- The figures stay exact where neither they nor the shares of the slots change. -/
theorem SumsExact.congr (h : SumsExact s) (shares : ∀ (g : Figure) j, g.share (t.slot j).record = g.share (s.slot j).record)
    (figures : ∀ g : Figure, g.of t = g.of s) : SumsExact t := by
  refine sumsExact_iff.2 fun g => ?_
  rw [figures g, sumsExact_iff.1 h g, sumOver_eq, sumOver_eq]
  exact (Finset.sum_congr rfl fun j _ => shares g j).symm

/-- The records, the lists and the sums are as they were; the shed state, the budget unit, the settings, the controller
state and all beside the table may differ. -/
structure SameRecords (s t : State) : Prop where
  slots     : t.slots = s.slots
  admission : t.admission = s.admission
  committed : t.committed = s.committed
  waitQueue : t.waitQueue = s.waitQueue
  shedList  : t.shedList = s.shedList
  relief    : t.relief = s.relief
  channels  : t.channels = s.channels
  clients   : t.clients = s.clients

theorem Aside.sameRecords (h : Aside s t) : SameRecords s t :=
  ⟨h.slots, h.admission, h.committed, h.waitQueue, h.shedList, h.relief, h.channels, h.clients⟩

theorem SameRecords.slot (h : SameRecords s t) (j : SlotId) : t.slot j = s.slot j := by simp only [State.slot, h.slots]

theorem SameRecords.channel (h : SameRecords s t) (n : ChannelId) : t.channel n = s.channel n := by
  simp only [State.channel, h.channels]

theorem SameRecords.client (h : SameRecords s t) (c : ClientId) : t.client c = s.client c := by
  simp only [State.client, h.clients]

theorem SameRecords.setting (s : State) (g : Settings) : SameRecords s { s with settings := g } := by
  constructor <;> rfl

theorem SameRecords.budget (s : State) (b : Nat) : SameRecords s { s with budget := b } := by constructor <;> rfl

theorem SameRecords.mode (s : State) (m : Mode) : SameRecords s { s with mode := m } := by constructor <;> rfl

theorem SameRecords.pending (s : State) (l : List Instr) : SameRecords s { s with pending := l } := by
  constructor <;> rfl

theorem SameRecords.shed (s : State) (x : ShedState) (f : BitVec 7) : SameRecords s { s with shed := x, flags := f } := by
  constructor <;> rfl

theorem SameRecords.advance (s : State) : SameRecords s (driveLines { s with tick := s.tick + 1 }) := by
  constructor <;> rfl

theorem SameRecords.selectTier (s : State) (v : Tier) : SameRecords s (Machine.selectTier v s) := by
  constructor <;> rfl

theorem SameRecords.takeLineChange (s : State) (v : Tier) : SameRecords s (Machine.takeLineChange v s) := by
  unfold Machine.takeLineChange
  dsimp only
  split <;> constructor <;> rfl

theorem SumsExact.same (h : SumsExact s) (same : SameRecords s t) : SumsExact t := by
  refine h.congr (fun g j => by rw [same.slot]) fun g => ?_
  cases g <;> simp only [Figure.of, same.channel, same.client, same.committed, same.relief]

/-! ## Shares of a record -/

/-- The shares of a record by what they depend on: its owner, its channel, its states, its amount and its relief. -/
def Figure.plain (o : ClientId) (n : ChannelId) (live queued : Bool) (amount relief : Nat) : Figure → Nat
  | .committed => only live amount
  | .relief => relief
  | .sum m => only (decide (n = m)) (only live amount)
  | .live m => only (decide (n = m) && live) 1
  | .queued m => only (decide (n = m) && queued) 1
  | .client c => only (decide (o = c)) (only live amount)
  | .held c => only (decide (o = c)) (only (live || queued) amount)
  | .occupied c => only (decide (o = c)) 1

theorem Figure.weight_eq (r : Record) (g : Figure) :
    g.weight r = g.plain r.owner r.channel r.isLive r.isQueued r.amount r.reliefAmount := by cases g <;> rfl

/-- Two records with the same owner, channel, amount and notice, live or queued alike, have the same shares. -/
theorem Figure.weight_congr (owner : r'.owner = r.owner) (channel : r'.channel = r.channel)
    (amount : r'.amount = r.amount) (live : r'.isLive = r.isLive) (queued : r'.isQueued = r.isQueued)
    (relief : r'.reliefAmount = r.reliefAmount) (g : Figure) : g.weight r' = g.weight r := by
  simp only [Figure.weight_eq, owner, channel, amount, live, queued, relief]

/-- Pending kinds have no share. -/
theorem Figure.weight_kinds (r : Record) (k : KindSet) (g : Figure) : g.weight { r with kinds := k } = g.weight r :=
  Figure.weight_congr rfl rfl rfl rfl rfl rfl g

/-! ## What leaving the collections does -/

@[simp] theorem detach_committed (i : SlotId) (r : Record) (s : State) :
    (detach i r s).committed = s.committed - r.liveAmount := by
  unfold detach
  split <;> simp [leaveLive, leaveQueued, Record.liveAmount, Record.isLive, *]

@[simp] theorem detach_relief (i : SlotId) (r : Record) (s : State) :
    (detach i r s).relief = s.relief - r.reliefAmount := by
  unfold detach
  split
  · simp [leaveQueued, Record.reliefAmount, Record.notice?, *]
  · cases e : r.notice? <;> simp [leaveLive, Record.reliefAmount, e]
  · simp [Record.reliefAmount, Record.notice?, *]

@[simp] theorem detach_admission (i : SlotId) (r : Record) (s : State) :
    (detach i r s).admission = if r.isLive then without i s.admission else s.admission := by
  unfold detach
  split <;> simp [leaveLive, leaveQueued, Record.isLive, *]

@[simp] theorem detach_waitQueue (i : SlotId) (r : Record) (s : State) :
    (detach i r s).waitQueue = if r.isQueued then without i s.waitQueue else s.waitQueue := by
  unfold detach
  split <;> simp [leaveLive, leaveQueued, Record.isQueued, *]

@[simp] theorem detach_shedList (i : SlotId) (r : Record) (s : State) :
    (detach i r s).shedList = if r.isLive then without i s.shedList else s.shedList := by
  unfold detach
  split <;> simp [leaveLive, leaveQueued, Record.isLive, *]

/-- A channel after a record has left the sums. -/
def Channel.without (r : Record) (x : Channel) : Channel :=
  { x with sum := x.sum - r.liveAmount, live := x.live - only r.isLive 1, queued := x.queued - only r.isQueued 1 }

theorem leaveLive_channel (i : SlotId) (r : Record) (s : State) (m : ChannelId) : (leaveLive i r s).channel m =
    if m = r.channel then { s.channel r.channel with sum := (s.channel r.channel).sum - r.amount,
                                                     live := (s.channel r.channel).live - 1 }
    else s.channel m := State.channel_setChannel _ _ _ _

theorem leaveQueued_channel (i : SlotId) (r : Record) (s : State) (m : ChannelId) : (leaveQueued i r s).channel m =
    if m = r.channel then { s.channel r.channel with queued := (s.channel r.channel).queued - 1 }
    else s.channel m := State.channel_setChannel _ _ _ _

theorem detach_channel_eq (i : SlotId) (r : Record) (s : State) (m : ChannelId) :
    (detach i r s).channel m = if m = r.channel then (s.channel m).without r else s.channel m := by
  unfold detach
  split
  · rw [leaveQueued_channel]
    split <;> simp_all [Channel.without, Record.liveAmount, Record.isLive, Record.isQueued, only]
  · rw [leaveLive_channel]
    split <;> simp_all [Channel.without, Record.liveAmount, Record.isLive, Record.isQueued, only]
  · simp_all [Channel.without, Record.liveAmount, Record.isLive, Record.isQueued, only]

/-- A client after a record of its own has left the sums; its slot count and its notice queue are as they were. -/
def Client.without (r : Record) (o : Client) : Client :=
  { o with committed := o.committed - r.liveAmount, held := o.held - r.heldAmount }

theorem leaveLive_client (i : SlotId) (r : Record) (s : State) (d : ClientId) : (leaveLive i r s).client d =
    if d = r.owner then { s.client r.owner with committed := (s.client r.owner).committed - r.amount,
                                                held := (s.client r.owner).held - r.amount }
    else s.client d := State.client_setClient _ _ _ _

theorem leaveQueued_client (i : SlotId) (r : Record) (s : State) (d : ClientId) : (leaveQueued i r s).client d =
    if d = r.owner then { s.client r.owner with held := (s.client r.owner).held - r.amount }
    else s.client d := State.client_setClient _ _ _ _

theorem detach_client_eq (i : SlotId) (r : Record) (s : State) (d : ClientId) :
    (detach i r s).client d = if d = r.owner then (s.client d).without r else s.client d := by
  unfold detach
  split
  · rw [leaveQueued_client]
    split <;> simp_all [Client.without, Record.liveAmount, Record.heldAmount, Record.isLive, Record.isQueued]
  · rw [leaveLive_client]
    split <;> simp_all [Client.without, Record.liveAmount, Record.heldAmount, Record.isLive]
  · simp_all [Client.without, Record.liveAmount, Record.heldAmount, Record.isLive, Record.isQueued]

/-- The share of a record in what `detach` takes it out of: all but its owner's slot count. -/
def Figure.detached (r : Record) : Figure → Nat
  | .occupied _ => 0
  | g => g.weight r

theorem figure_detach (i : SlotId) (r : Record) (s : State) (g : Figure) :
    g.of (detach i r s) = g.of s - g.detached r := by
  cases g with
  | committed => exact detach_committed i r s
  | relief => exact detach_relief i r s
  | sum n | live n | queued n =>
    simp only [Figure.of, Figure.detached, Figure.weight, detach_channel_eq, only, @eq_comm _ r.channel]
    split <;> simp_all [Channel.without, only]
  | client c | held c | occupied c =>
    simp only [Figure.of, Figure.detached, Figure.weight, detach_client_eq, only, @eq_comm _ r.owner]
    split <;> simp_all [Client.without]

/-! ## Freeing and retirement -/

/-- The channels, the notice queues and the rights are no part of what freeing adds to `detach`. -/
theorem freeRecord_channel (i : SlotId) (r : Record) (s : State) (m : ChannelId) :
    (freeRecord i r s).channel m = if m = r.channel then (s.channel m).without r else s.channel m :=
  detach_channel_eq i r s m

theorem freeRecord_client (i : SlotId) (r : Record) (s : State) (d : ClientId) : (freeRecord i r s).client d =
    if d = r.owner then
      { (s.client d).without r with occupied := (s.client d).occupied - 1, notices := without i (s.client d).notices }
    else s.client d := by
  have written : (freeRecord i r s).client d =
      if d = r.owner then
        { (detach i r s).client r.owner with
          occupied := ((detach i r s).client r.owner).occupied - 1
          notices := Machine.without i ((detach i r s).client r.owner).notices }
      else (detach i r s).client d := State.client_setClient _ _ _ _
  rw [written, detach_client_eq, detach_client_eq]
  split
  · next e =>
    subst e
    rw [if_pos rfl]
    rfl
  · rfl

theorem freeRecord_slot (i j : SlotId) (r : Record) (s : State) : (freeRecord i r s).slot j =
    if j = i then { gen := (s.slot i).gen + 1, record := none } else s.slot j := by
  simp [freeRecord, State.slot_setSlot]

theorem figure_freeRecord (i : SlotId) (r : Record) (s : State) (g : Figure) :
    g.of (freeRecord i r s) = g.of s - g.weight r := by
  cases g with
  | occupied c =>
    simp only [Figure.of, Figure.weight, freeRecord_client, only, @eq_comm _ r.owner]
    split <;> simp_all
  | client c | held c =>
    have := figure_detach i r s
    simp only [Figure.of, Figure.weight, freeRecord_client, only, @eq_comm _ r.owner]
    split <;> simp_all [Client.without]
  | committed => exact figure_detach i r s .committed
  | relief => exact figure_detach i r s .relief
  | sum n => exact figure_detach i r s (.sum n)
  | live n => exact figure_detach i r s (.live n)
  | queued n => exact figure_detach i r s (.queued n)

theorem SumsExact.freeRecord (h : SumsExact s) (record : (s.slot i).record = some r) :
    SumsExact (Machine.freeRecord i r s) := by
  refine h.change (i := i) (fun j other => by rw [freeRecord_slot, if_neg other]) fun g le => ?_
  rw [freeRecord_slot, if_pos rfl, figure_freeRecord, record]
  rw [record] at le
  simp only [Figure.share_some, Figure.share_none] at le ⊢
  omega

/-- A channel that keeps its counts. -/
structure CountsKept (x y : Channel) : Prop where
  sum    : y.sum = x.sum
  live   : y.live = x.live
  queued : y.queued = x.queued

/-- Writing a channel with the same counts moves no figure. -/
theorem figure_setChannel {x : Channel} (kept : CountsKept (s.channel n) x) (g : Figure) :
    g.of (s.setChannel n x) = g.of s := by
  cases g with
  | sum m | live m | queued m =>
    simp only [Figure.of, State.channel_setChannel]
    split <;> simp_all [kept.sum, kept.live, kept.queued]
  | _ => rfl

theorem SumsExact.setChannel (h : SumsExact s) {x : Channel} (kept : CountsKept (s.channel n) x) :
    SumsExact (s.setChannel n x) := h.congr (fun _ _ => rfl) (figure_setChannel kept)

theorem CountsKept.stop (now : Tick) (x : Channel) : CountsKept x (x.stop now) := by
  unfold Channel.stop
  split
  · split <;> exact ⟨rfl, rfl, rfl⟩
  · split <;> exact ⟨rfl, rfl, rfl⟩
  · exact ⟨rfl, rfl, rfl⟩

/-- A last-grant report writes the record's channel, if anything. -/
theorem lastGrant_eq (r : Record) (s : State) : lastGrant r s =
    s.setChannel r.channel
      (if r.isLive = true ∧ (s.channel r.channel).live = 0 then (s.channel r.channel).stop s.tick
       else s.channel r.channel) := by
  unfold lastGrant
  dsimp only
  split
  · next h => rw [if_pos (by simpa using h)]
  · next h => rw [if_neg (by simpa using h), State.setChannel_self]

theorem figure_lastGrant (r : Record) (s : State) (g : Figure) : g.of (lastGrant r s) = g.of s := by
  rw [lastGrant_eq]
  refine figure_setChannel ?_ g
  split
  · exact .stop _ _
  · exact ⟨rfl, rfl, rfl⟩

theorem lastGrant_slot (r : Record) (s : State) (j : SlotId) : (lastGrant r s).slot j = s.slot j := by
  rw [lastGrant_eq]
  rfl

theorem SumsExact.lastGrant (h : SumsExact s) (r : Record) : SumsExact (Machine.lastGrant r s) :=
  h.congr (fun g j => by rw [lastGrant_slot]) (figure_lastGrant r s)

theorem SumsExact.freeReporting (h : SumsExact s) (record : (s.slot i).record = some r) :
    SumsExact (Machine.freeReporting i r s) := (h.freeRecord record).lastGrant r

/-- Writing the pending kinds of a record and its place in its owner's notice queue moves no figure. -/
theorem figure_setKinds (i : SlotId) (r : Record) (k : KindSet) (s : State) (g : Figure) :
    g.of (setKinds i r k s) = g.of s := by
  cases g with
  | client c | held c | occupied c =>
    simp only [Figure.of, setKinds, State.client_setClient]
    split <;> simp_all
  | _ => rfl

theorem setKinds_slot (i j : SlotId) (r : Record) (k : KindSet) (s : State) : (setKinds i r k s).slot j =
    if j = i then { gen := (s.slot i).gen, record := some { r with kinds := k } } else s.slot j :=
  State.slot_setRecord s i j _

theorem SumsExact.setKinds (h : SumsExact s) (record : (s.slot i).record = some r) (k : KindSet) :
    SumsExact (Machine.setKinds i r k s) := by
  refine h.congr (fun g j => ?_) (figure_setKinds i r k s)
  rw [setKinds_slot]
  split
  · next e =>
    subst e
    rw [record]
    exact Figure.weight_kinds r k g
  · rfl

theorem SumsExact.post (h : SumsExact s) (i : SlotId) (kind : NoticeKind) : SumsExact (Machine.post i kind s) := by
  unfold Machine.post
  split
  · next record => exact h.setKinds record _
  · exact h

theorem figure_post (i : SlotId) (kind : NoticeKind) (s : State) (g : Figure) : g.of (post i kind s) = g.of s := by
  unfold post
  split
  · exact figure_setKinds ..
  · rfl

/-- A retirement moves the figures as `detach` does: the record keeps its slot. -/
theorem figure_retireRecord (i : SlotId) (r : Record) (reason : Reason) (s : State) (g : Figure) :
    g.of (retireRecord i r reason s) = g.of s - g.detached r := by
  rw [retireRecord, figure_post, ← figure_detach i r s g]
  cases g <;> rfl

theorem Figure.weight_tombstone (g : Figure) (r : Record) (reason : Reason) :
    g.weight (r.tombstone reason) + g.detached r = g.weight r := by
  cases g with
  | occupied c => rfl
  | _ => simp [Figure.weight, Figure.detached, Record.tombstone, Record.liveAmount, Record.heldAmount,
      Record.isLive, Record.isQueued, Record.reliefAmount, Record.notice?, only]

theorem SumsExact.retireRecord (h : SumsExact s) (record : (s.slot i).record = some r) (reason : Reason) :
    SumsExact (Machine.retireRecord i r reason s) := by
  refine h.change (i := i) (fun j other => by rw [retireRecord_slot_other r reason s other]) fun g le => ?_
  rw [retireRecord_slot_same, figure_retireRecord, record]
  rw [record] at le
  have := Figure.weight_tombstone g r reason
  simp only [Figure.share_some] at le ⊢
  omega

theorem SumsExact.retireReporting (h : SumsExact s) (record : (s.slot i).record = some r) (reason : Reason) :
    SumsExact (Machine.retireReporting reason i r s) := (h.retireRecord record reason).lastGrant r

end Sys2Proof.Machine
end

section
/-! PROOF. O12: every change of the part keeps every sum and count equal to what the records give (R10, R16, R17, R79). -/

namespace Sys2Proof.Machine

variable {s t u : State} {i j : SlotId} {r r' : Record} {c : ClientId} {n : ChannelId} {g : Figure} {a : Ask}

/-! ## Entering the live states and the wait queue -/

/-- What a record adds to the figures on entering the live states (R61). -/
def Figure.entered (r : Record) : Figure → Nat
  | .committed => r.amount
  | .sum n => only (decide (r.channel = n)) r.amount
  | .live n => only (decide (r.channel = n)) 1
  | .client c => only (decide (r.owner = c)) r.amount
  | _ => 0

theorem CountsKept.firstGrant (now : Tick) (x : Channel) : CountsKept x (x.firstGrant now) := by
  unfold Channel.firstGrant
  split <;> exact ⟨rfl, rfl, rfl⟩

theorem Channel.gain_counts (now : Tick) (amount : Nat) (x : Channel) : (x.gain now amount).sum = x.sum + amount ∧
    (x.gain now amount).live = x.live + 1 ∧ (x.gain now amount).queued = x.queued := by
  unfold Channel.gain
  dsimp only
  split
  · have kept := CountsKept.firstGrant now { x with sum := x.sum + amount, live := x.live + 1 }
    exact ⟨kept.sum, kept.live, kept.queued⟩
  · exact ⟨rfl, rfl, rfl⟩

theorem enterLive_channel (i : SlotId) (r : Record) (s : State) (m : ChannelId) : (enterLive i r s).channel m =
    if m = r.channel then (s.channel m).gain s.tick r.amount else s.channel m := by
  have written : (enterLive i r s).channel m =
      if m = r.channel then (s.channel r.channel).gain s.tick r.amount else s.channel m :=
    State.channel_setChannel _ _ _ _
  rw [written]
  split
  · next e => rw [e]
  · rfl

theorem enterLive_client (i : SlotId) (r : Record) (s : State) (d : ClientId) : (enterLive i r s).client d =
    if d = r.owner then { s.client d with committed := (s.client d).committed + r.amount } else s.client d := by
  have written : (enterLive i r s).client d =
      if d = r.owner then { s.client r.owner with committed := (s.client r.owner).committed + r.amount }
      else s.client d := State.client_setClient _ _ _ _
  rw [written]
  split
  · next e => rw [e]
  · rfl

/-- The live record that `enterLive` writes. -/
def Record.entering (r : Record) (s : State) : Record :=
  { r with phase := .live (decide ((s.channel r.channel).state = .on)) (leaseFrom r.kind s) none }

theorem enterLive_slot_eq (i j : SlotId) (r : Record) (s : State) : (enterLive i r s).slot j =
    if j = i then { gen := (s.slot i).gen, record := some (r.entering s) } else s.slot j :=
  State.slot_setRecord s i j _

theorem figure_enterLive (i : SlotId) (r : Record) (s : State) (g : Figure) :
    g.of (enterLive i r s) = g.of s + g.entered r := by
  cases g with
  | committed | relief => rfl
  | sum m | live m | queued m =>
    simp only [Figure.of, Figure.entered, enterLive_channel, only, @eq_comm _ r.channel]
    have := (s.channel m).gain_counts s.tick r.amount
    split <;> simp_all
  | client d | held d | occupied d =>
    simp only [Figure.of, Figure.entered, enterLive_client, only, @eq_comm _ r.owner]
    split <;> simp_all

/-- What a record adds to the figures while it waits, beside its held power (R64). -/
def Figure.waiting (r : Record) : Figure → Nat
  | .queued n => only (decide (r.channel = n)) 1
  | _ => 0

theorem unqueue_channel (i : SlotId) (r : Record) (s : State) (m : ChannelId) : (unqueue i r s).channel m =
    if m = r.channel then (s.channel m).unqueued else s.channel m := by
  have written : (unqueue i r s).channel m = if m = r.channel then (s.channel r.channel).unqueued else s.channel m :=
    State.channel_setChannel _ _ _ _
  rw [written]
  split
  · next e => rw [e]
  · rfl

theorem figure_unqueue (i : SlotId) (r : Record) (s : State) (g : Figure) :
    g.of (unqueue i r s) = g.of s - g.waiting r := by
  cases g with
  | sum m | live m | queued m =>
    simp only [Figure.of, Figure.waiting, unqueue_channel, only, @eq_comm _ r.channel]
    split <;> simp_all [Channel.unqueued]
  | _ => rfl

theorem Record.isLive_iff : r.isLive = true ↔ ∃ p l n, r.phase = .live p l n := by
  unfold Record.isLive
  split <;> simp_all

/-- A waiting record that enters the live states gives up its place in the queue's count and gains its live shares. -/
theorem Figure.weight_entering (queued : r.isQueued = true) (s : State) (g : Figure) :
    g.weight (r.entering s) + g.waiting r = g.weight r + g.entered r ∧ g.waiting r ≤ g.weight r := by
  obtain ⟨w, e⟩ := Record.phase_of_queued queued
  have before : g.weight r = g.plain r.owner r.channel false true r.amount 0 := by
    simp [Figure.weight_eq, Record.isLive, Record.isQueued, Record.reliefAmount, Record.notice?, e]
  have after : g.weight (r.entering s) = g.plain r.owner r.channel true false r.amount 0 := Figure.weight_eq _ g
  rw [before, after]
  cases g <;> simp [Figure.plain, Figure.waiting, Figure.entered, only]

theorem SumsExact.admitQueued (h : SumsExact s) (record : (s.slot i).record = some r) (queued : r.isQueued = true) :
    SumsExact (Machine.admitQueued i s) := by
  obtain ⟨kind, e⟩ := admitQueued_eq record
  rw [e]
  refine SumsExact.post (h.change (i := i) (fun j other => ?_) fun g le => ?_) i kind
  · rw [enterLive_slot_eq, if_neg other]
    rfl
  · rw [figure_enterLive, figure_unqueue, enterLive_slot_eq, if_pos rfl, record]
    rw [record] at le
    obtain ⟨swap, part⟩ := Figure.weight_entering queued (unqueue i r s) g
    simp only [Figure.share_some] at le ⊢
    omega

theorem SumsExact.walk (h : SumsExact s) : SumsExact (Machine.walk s) :=
  walk_keeps h fun i t taken ht => by
    obtain ⟨r, record, queued, -⟩ := visit_take taken
    exact ht.admitQueued record queued

/-! ## REQUEST -/

/-- What a new record adds to its client's held power and slot count. -/
def Figure.charged (r : Record) : Figure → Nat
  | .held c => only (decide (r.owner = c)) r.amount
  | .occupied c => only (decide (r.owner = c)) 1
  | _ => 0

theorem chargeClient_client (c : ClientId) (amount : Nat) (s : State) (d : ClientId) :
    (chargeClient c amount s).client d =
      if d = c then { s.client d with held := (s.client d).held + amount, occupied := (s.client d).occupied + 1 }
      else s.client d := by
  have written : (chargeClient c amount s).client d =
      if d = c then { s.client c with held := (s.client c).held + amount, occupied := (s.client c).occupied + 1 }
      else s.client d := State.client_setClient _ _ _ _
  rw [written]
  split
  · next e => rw [e]
  · rfl

theorem figure_chargeClient (c : ClientId) (a : Ask) (f : Phase) (s : State) (g : Figure) :
    g.of (chargeClient c a.amount s) = g.of s + g.charged (recordOf c a f) := by
  cases g with
  | client d | held d | occupied d =>
    simp only [Figure.of, Figure.charged, chargeClient_client, only, recordOf, @eq_comm _ c]
    split <;> simp_all
  | _ => rfl

/-- The shares of a record that is admitted at once. -/
theorem Figure.weight_admitted (r : Record) (s : State) (g : Figure) :
    g.weight (r.entering s) = g.charged r + g.entered r := by
  have after : g.weight (r.entering s) = g.plain r.owner r.channel true false r.amount 0 := Figure.weight_eq _ g
  rw [after]
  cases g <;> simp [Figure.plain, Figure.charged, Figure.entered, only]

theorem SumsExact.admitRequest (h : SumsExact s) (free : (s.slot i).record = none) (c : ClientId) (a : Ask) :
    SumsExact (Machine.admitRequest i c a s) := by
  refine h.change (i := i) (fun j other => ?_) fun g le => ?_
  · rw [Machine.admitRequest, enterLive_slot_eq, if_neg other]
    rfl
  · have shares := Figure.weight_admitted (recordOf c a (.live false none none)) (chargeClient c a.amount s) g
    rw [Machine.admitRequest, figure_enterLive, figure_chargeClient c a (.live false none none), enterLive_slot_eq,
      if_pos rfl, free]
    simp only [Figure.share_some, Figure.share_none]
    omega

/-- The wait deadline of a request that is queued now (R40). -/
def Ask.waitsUntil (a : Ask) (s : State) : Option Tick := a.timeout.map fun len => deadlineIn len s

theorem queueRequest_slot (i j : SlotId) (c : ClientId) (a : Ask) (s : State) : (queueRequest i c a s).slot j =
    if j = i then { gen := (s.slot i).gen, record := some (recordOf c a (.queued (a.waitsUntil s))) } else s.slot j :=
  State.slot_setRecord _ i j _

theorem queueRequest_channel (i : SlotId) (c : ClientId) (a : Ask) (s : State) (m : ChannelId) :
    (queueRequest i c a s).channel m =
      if m = a.channel then { s.channel m with queued := (s.channel m).queued + 1 } else s.channel m := by
  have written : (queueRequest i c a s).channel m =
      if m = a.channel then { s.channel a.channel with queued := (s.channel a.channel).queued + 1 }
      else s.channel m := State.channel_setChannel _ _ _ _
  rw [written]
  split
  · next e => rw [e]
  · rfl

theorem queueRequest_client (i : SlotId) (c : ClientId) (a : Ask) (s : State) (d : ClientId) :
    (queueRequest i c a s).client d =
      if d = c then { s.client d with held := (s.client d).held + a.amount, occupied := (s.client d).occupied + 1 }
      else s.client d := chargeClient_client c a.amount s d

theorem figure_queueRequest (i : SlotId) (c : ClientId) (a : Ask) (f : Phase) (s : State) (g : Figure) :
    g.of (queueRequest i c a s) = g.of s + g.charged (recordOf c a f) + g.waiting (recordOf c a f) := by
  cases g with
  | sum m | live m | queued m =>
    simp only [Figure.of, Figure.charged, Figure.waiting, queueRequest_channel, only, recordOf, @eq_comm _ a.channel]
    split <;> simp_all
  | client d => exact figure_chargeClient c a f s (.client d)
  | held d => exact figure_chargeClient c a f s (.held d)
  | occupied d => exact figure_chargeClient c a f s (.occupied d)
  | _ => rfl

theorem Figure.weight_queued (w : Option Tick) (e : r.phase = .queued w) (g : Figure) :
    g.weight r = g.charged r + g.waiting r := by
  cases g <;> simp [Figure.weight, Figure.charged, Figure.waiting, Record.liveAmount, Record.heldAmount,
      Record.isLive, Record.isQueued, Record.reliefAmount, Record.notice?, only, e]

theorem SumsExact.queueRequest (h : SumsExact s) (free : (s.slot i).record = none) (c : ClientId) (a : Ask) :
    SumsExact (Machine.queueRequest i c a s) := by
  refine h.change (i := i) (fun j other => ?_) fun g le => ?_
  · rw [queueRequest_slot, if_neg other]
  · have shares := Figure.weight_queued (r := recordOf c a (.queued (a.waitsUntil s))) _ rfl g
    rw [figure_queueRequest i c a (.queued (a.waitsUntil s)), queueRequest_slot, if_pos rfl, free]
    simp only [Figure.share_some, Figure.share_none]
    omega

/-! ## Changes of amount -/

/-- What of a live record's shares is its amount (R18). -/
def Figure.priced (r : Record) : Figure → Nat
  | .committed => r.amount
  | .sum n => only (decide (r.channel = n)) r.amount
  | .client c => only (decide (r.owner = c)) r.amount
  | .held c => only (decide (r.owner = c)) r.amount
  | _ => 0

/-- The record after a change of its amount (R7, R18). -/
def Record.reamounted (a : Nat) (r : Record) : Record :=
  { r with amount := a, floor := r.floor.filter fun f => decide (f < a) }

theorem changeAmount_channel (i : SlotId) (r : Record) (a : Nat) (s : State) (m : ChannelId) :
    (changeAmount i r a s).channel m =
      if m = r.channel then { s.channel m with sum := (s.channel m).sum - r.amount + a } else s.channel m := by
  have written : (changeAmount i r a s).channel m =
      if m = r.channel then { s.channel r.channel with sum := (s.channel r.channel).sum - r.amount + a }
      else s.channel m := State.channel_setChannel _ _ _ _
  rw [written]
  split
  · next e => rw [e]
  · rfl

theorem changeAmount_client (i : SlotId) (r : Record) (a : Nat) (s : State) (d : ClientId) :
    (changeAmount i r a s).client d =
      if d = r.owner then { s.client d with committed := (s.client d).committed - r.amount + a,
                                            held := (s.client d).held - r.amount + a }
      else s.client d := by
  have written : (changeAmount i r a s).client d =
      if d = r.owner then { s.client r.owner with committed := (s.client r.owner).committed - r.amount + a,
                                                  held := (s.client r.owner).held - r.amount + a }
      else s.client d := State.client_setClient _ _ _ _
  rw [written]
  split
  · next e => rw [e]
  · rfl

theorem changeAmount_slot (i j : SlotId) (r : Record) (a : Nat) (s : State) : (changeAmount i r a s).slot j =
    if j = i then { gen := (s.slot i).gen, record := some (r.reamounted a) } else s.slot j :=
  State.slot_setRecord s i j _

theorem figure_changeAmount (i : SlotId) (r : Record) (a : Nat) (s : State) (g : Figure) :
    g.of (changeAmount i r a s) = g.of s - g.priced r + g.priced (r.reamounted a) := by
  cases g with
  | sum m | live m | queued m =>
    simp only [Figure.of, Figure.priced, changeAmount_channel, only, Record.reamounted, @eq_comm _ r.channel]
    split <;> simp_all
  | client d | held d | occupied d =>
    simp only [Figure.of, Figure.priced, changeAmount_client, only, Record.reamounted, @eq_comm _ r.owner]
    split <;> simp_all
  | _ => rfl

theorem Figure.weight_reamounted {p : Bool} {l : Option Tick} (active : r.phase = .live p l none) (a : Nat)
    (g : Figure) : g.weight r + g.priced (r.reamounted a) = g.weight (r.reamounted a) + g.priced r ∧
      g.priced r ≤ g.weight r := by
  cases g with
  | occupied c => exact ⟨rfl, Nat.zero_le _⟩
  | _ =>
    simp [Figure.weight, Figure.priced, Record.reamounted, Record.liveAmount, Record.heldAmount, Record.isLive,
      Record.isQueued, Record.reliefAmount, Record.notice?, only, active, Nat.add_comm]

theorem SumsExact.changeAmount (h : SumsExact s) (record : (s.slot i).record = some r) {p : Bool} {l : Option Tick}
    (active : r.phase = .live p l none) (a : Nat) : SumsExact (Machine.changeAmount i r a s) := by
  refine h.change (i := i) (fun j other => by rw [changeAmount_slot, if_neg other]) fun g le => ?_
  rw [changeAmount_slot, if_pos rfl, figure_changeAmount, record]
  rw [record] at le
  obtain ⟨swap, part⟩ := Figure.weight_reamounted active a g
  simp only [Figure.share_some] at le ⊢
  omega

/-! ## Notices -/

/-- The part after the notice of the NOTICED record `r` of slot `i` has been taken away. -/
def noticeEnded (i : SlotId) (r : Record) (p : Bool) (l : Option Tick) (n : Notice) (s : State) : State :=
  { s.setRecord i { r with phase := .live p l none } with
    shedList := without i s.shedList, relief := s.relief - reliefOf r.amount n }

theorem endNotice_noticed {p : Bool} {l : Option Tick} {n : Notice} (record : (s.slot i).record = some r)
    (noticed : r.phase = .live p l (some n)) : endNotice i s = noticeEnded i r p l n s := by
  simp [endNotice, noticeEnded, record, noticed]

theorem noticeEnded_slot (i j : SlotId) (r : Record) (p : Bool) (l : Option Tick) (n : Notice) (s : State) :
    (noticeEnded i r p l n s).slot j =
      if j = i then { gen := (s.slot i).gen, record := some { r with phase := .live p l none } } else s.slot j :=
  State.slot_setRecord s i j _

/-- Of the shares of a live record, only its relief depends on its notice. -/
theorem Figure.weight_notice {p : Bool} {l : Option Tick} {x : Option Notice} (live : r.phase = .live p l x)
    (y : Option Notice) (g : Figure) :
    g.weight { r with phase := .live p l y } = match g with
      | .relief => (y.map (reliefOf r.amount)).getD 0
      | g => g.weight r := by
  have before : g.weight r = g.plain r.owner r.channel true false r.amount r.reliefAmount := by
    simp [Figure.weight_eq, Record.isLive, Record.isQueued, live]
  have after : g.weight { r with phase := .live p l y } =
    g.plain r.owner r.channel true false r.amount ((y.map (reliefOf r.amount)).getD 0) := Figure.weight_eq _ g
  rw [after]
  cases g with
  | relief => rfl
  | _ => exact before.symm

theorem SumsExact.noticeEnded (h : SumsExact s) (record : (s.slot i).record = some r) {p : Bool} {l : Option Tick}
    {n : Notice} (noticed : r.phase = .live p l (some n)) : SumsExact (Machine.noticeEnded i r p l n s) := by
  refine h.change (i := i) (fun j other => by rw [noticeEnded_slot, if_neg other]) fun g le => ?_
  rw [noticeEnded_slot, if_pos rfl, record]
  rw [record] at le
  simp only [Figure.share_some, Figure.weight_notice noticed] at le ⊢
  cases g with
  | relief =>
    simp only [Figure.of, Machine.noticeEnded, Figure.weight, Record.reliefAmount, Record.notice?, noticed,
      Option.map_some, Option.map_none, Option.getD_some, Option.getD_none] at le ⊢
    omega
  | _ => rfl

theorem SumsExact.withdrawNotice (h : SumsExact s) (record : (s.slot i).record = some r)
    (noticed : r.notice?.isSome = true) : SumsExact (Machine.withdrawNotice i s) := by
  obtain ⟨n, hn⟩ := Option.isSome_iff_exists.1 noticed
  obtain ⟨p, l, live⟩ := Record.phase_of_notice hn
  rw [Machine.withdrawNotice, endNotice_noticed record live]
  exact (h.noticeEnded record live).post i _

theorem SumsExact.setNotice (h : SumsExact s) (record : (s.slot i).record = some r) {p : Bool} {l : Option Tick}
    (active : r.phase = .live p l none) (q : Nat) : SumsExact (Machine.setNotice i r p l q s) := by
  refine h.change (i := i) (fun j other => by rw [setNotice_slot, State.slot_setRecord, if_neg other]) fun g le => ?_
  rw [setNotice_slot, State.slot_setRecord_same, record]
  simp only [Figure.share_some, Figure.weight_notice active]
  cases g with
  | relief =>
    simp [Figure.of, Machine.setNotice, Figure.weight, Record.reliefAmount, Record.notice?, active]
  | _ => rfl

/-- REDUCE is posted to ACTIVE records alone (R84). -/
theorem postReduce_cases (i : SlotId) (q : Nat) (s : State) :
    postReduce i q s = s ∨ ∃ r p l, (s.slot i).record = some r ∧ r.phase = .live p l none ∧
      postReduce i q s = post i .reduce (setNotice i r p l q s) := by
  by_cases active : ∃ r p l, (s.slot i).record = some r ∧ r.phase = .live p l none
  · obtain ⟨r, p, l, record, live⟩ := active
    exact .inr ⟨r, p, l, record, live, postReduce_active record live⟩
  · refine .inl ?_
    unfold postReduce
    split
    · next r record =>
      split
      · next p l live => exact absurd ⟨r, p, l, record, live⟩ active
      · rfl
    · rfl

theorem SumsExact.postReduce (h : SumsExact s) (i : SlotId) (q : Nat) : SumsExact (Machine.postReduce i q s) := by
  obtain e | ⟨r, p, l, record, active, e⟩ := postReduce_cases i q s
  · rwa [e]
  · rw [e]
    exact (h.setNotice record active q).post i _

/-! ## Hand-offs -/

/-- What postings and withdrawals keep, an evaluation keeps, where it depends neither on the shed state nor on the
event flags. -/
theorem evaluate_keepsAll {P : State → Prop} (hs : P s) (reduce : ∀ i q t, P t → P (postReduce i q t))
    (withdraw : ∀ i r t, (t.slot i).record = some r → r.notice?.isSome = true → P t → P (withdrawNotice i t))
    (state : ∀ t x f, P t → P { t with shed := x, flags := f }) : P (evaluate s) := by
  rw [evaluate_eq_weigh]
  refine state _ _ _ ?_
  unfold weigh
  split
  · exact chooseVictims_keeps hs reduce
  · exact withdrawFrom_keeps hs withdraw

/-- What an evaluation and a walk keep, the hand-offs of a claim keep (R20). -/
theorem handOn_keepsAll {P : State → Prop} (e w : Bool) (hs : P s) (evaluated : ∀ t, P t → P (evaluate t))
    (walked : ∀ t, P t → P (walk t)) : P (handOn e w s) := by
  have first : P (if e then evaluate s else s) := by
    split
    · exact evaluated s hs
    · exact hs
  obtain same | same := handOn_cases e w s <;> rw [same]
  · exact first
  · exact walked _ first

theorem SumsExact.aside (h : SumsExact s) (same : Aside s t) : SumsExact t := h.same same.sameRecords

theorem SumsExact.evaluate (h : SumsExact s) : SumsExact (Machine.evaluate s) :=
  evaluate_keepsAll h (fun i q _ ht => ht.postReduce i q) (fun _ _ _ record noticed ht => ht.withdrawNotice record noticed)
    fun _ x f ht => ht.same (.shed _ x f)

theorem SumsExact.handOn (h : SumsExact s) (e w : Bool) : SumsExact (Machine.handOn e w s) :=
  handOn_keepsAll e w h (fun _ ht => ht.evaluate) fun _ ht => ht.walk

/-! ## Records that keep their shares -/

theorem SumsExact.setRecord (h : SumsExact s) (record : (s.slot i).record = some r)
    (same : ∀ g : Figure, g.weight r' = g.weight r) : SumsExact (s.setRecord i r') := by
  refine h.congr (fun g j => ?_) fun g => by cases g <;> rfl
  rw [State.slot_setRecord]
  split
  · next e =>
    subst e
    rw [record]
    exact same g
  · rfl

/-- A live record has the same shares with another powered field, lease deadline, or notice of the same relief. -/
theorem Figure.weight_live {p p' : Bool} {l l' : Option Tick} {x y : Option Notice} (live : r.phase = .live p l x)
    (relief : (y.map Notice.required) = x.map Notice.required) (g : Figure) :
    g.weight { r with phase := .live p' l' y } = g.weight r := by
  refine Figure.weight_congr (r := r) (r' := { r with phase := .live p' l' y }) rfl rfl rfl ?_ ?_ ?_ g
  · simp [Record.isLive, live]
  · simp [Record.isQueued, live]
  · cases x <;> cases y <;> simp_all [Record.reliefAmount, Record.notice?, reliefOf]

theorem SumsExact.markPowered (h : SumsExact s) (record : (s.slot i).record = some r) :
    SumsExact (Machine.markPowered i r s) := by
  unfold Machine.markPowered
  split
  · next live => exact (h.setRecord record (Figure.weight_live live rfl)).post i _
  · exact h

theorem SumsExact.comeUp (h : SumsExact s) (n : ChannelId) : SumsExact (Machine.comeUp n s) := by
  unfold Machine.comeUp
  dsimp only
  split
  · refine SumsExact.aside ?_ (.nextOrder _)
    exact overRecords_keeps (h.setChannel ⟨rfl, rfl, rfl⟩) fun i r t _ record ht => ht.markPowered record
  · exact h

theorem SumsExact.faultEntered (h : SumsExact s) (n : ChannelId) (cause : Cause) :
    SumsExact (Machine.faultEntered n cause s) := by
  have written : SumsExact (s.setChannel n ((s.channel n).faultedAt s.tick cause)) := h.setChannel ⟨rfl, rfl, rfl⟩
  obtain ⟨-, e⟩ | ⟨-, e⟩ := faultEntered_cases n cause s <;> rw [e]
  · exact (written.aside (.raise _ _)).aside (.raise _ _)
  · exact written.aside (.raise _ _)

theorem SumsExact.faultRetired (h : SumsExact s) (n : ChannelId) (cause : Cause) :
    SumsExact (Machine.faultRetired n cause s) :=
  SumsExact.aside (overRecords_keeps (P := SumsExact) (h.faultEntered n cause)
    fun _ _ _ _ record ht => ht.retireRecord record _) (.nextOrder _)

theorem SumsExact.fault (h : SumsExact s) (n : ChannelId) (cause : Cause) : SumsExact (Machine.fault n cause s) := by
  rw [fault_eq]
  exact (h.faultRetired n cause).handOn _ _

/-! ## What is left where every record is gone -/

theorem sumOver_eq_zero {f : Record → Nat} (zero : ∀ i r, (s.slot i).record = some r → f r = 0) : sumOver f s = 0 := by
  rw [sumOver_eq]
  refine Finset.sum_eq_zero fun i _ => ?_
  cases e : (s.slot i).record with
  | none => rfl
  | some r => exact zero i r e

/-- An empty table with every figure at 0. -/
theorem SumsExact.of_empty (free : ∀ i, (s.slot i).record = none) (zero : ∀ g : Figure, g.of s = 0) : SumsExact s :=
  sumsExact_iff.2 fun g => by rw [zero g, sumOver_eq_zero fun i r record => by simp [free i] at record]

theorem bulkClear_slot (s : State) (j : SlotId) : (bulkClear s).slot j = (s.slot j).cleared := by
  simp [bulkClear, State.slot]

theorem Slot.cleared_record (x : Slot) : x.cleared.record = none := by
  unfold Slot.cleared
  split
  · rfl
  · assumption

theorem bulkClear_channel (s : State) (n : ChannelId) : (bulkClear s).channel n = (s.channel n).cleared s.tick := by
  simp [bulkClear, State.channel]

theorem bulkClear_client (s : State) (c : ClientId) : (bulkClear s).client c = Client.closed := by
  simp [bulkClear, State.client]

theorem SumsExact.bulkClear (s : State) : SumsExact (Machine.bulkClear s) := by
  refine .of_empty (fun i => by rw [bulkClear_slot, Slot.cleared_record]) fun g => ?_
  cases g with
  | committed | relief => rfl
  | sum n | live n | queued n => simp only [Figure.of, bulkClear_channel, Channel.cleared]
  | client c | held c | occupied c => simp only [Figure.of, bulkClear_client, Client.closed]

/-! ## Sessions -/

theorem figure_setClient {d : ClientId} {x : Client} (committed : x.committed = (s.client d).committed)
    (held : x.held = (s.client d).held) (occupied : x.occupied = (s.client d).occupied) (g : Figure) :
    g.of (s.setClient d x) = g.of s := by
  cases g with
  | client c | held c | occupied c =>
    simp only [Figure.of, State.client_setClient]
    split <;> simp_all
  | _ => rfl

/-- What freeing the records of several slots keeps. -/
theorem overRecords_slot_other {f : SlotId → Record → State → State} {l : List SlotId}
    (writes : ∀ i r t, j ≠ i → (f i r t).slot j = t.slot j) (out : j ∉ l) : (overRecords f l s).slot j = s.slot j :=
  overRecords_keeps (P := fun t => t.slot j = s.slot j) rfl
    fun i r t hi _ same => (writes i r t (ne_of_mem_of_not_mem hi out).symm).trans same

/-- Each of several distinct slots is written by its own turn. -/
theorem overRecords_slot {f : SlotId → Record → State → State} {l : List SlotId} {x : Slot} (nodup : l.Nodup)
    (member : j ∈ l) (writes : ∀ i r t, j ≠ i → (f i r t).slot j = t.slot j) (record : (s.slot j).record = some r)
    (own : ∀ t, t.slot j = s.slot j → (f j r t).slot j = x) : (overRecords f l s).slot j = x := by
  induction l generalizing s with
  | nil => cases member
  | cons i rest ih =>
    obtain ⟨out, nodup'⟩ := List.nodup_cons.1 nodup
    unfold overRecords
    by_cases e : j = i
    · subst e
      rw [record]
      exact (overRecords_slot_other writes out).trans (own s rfl)
    · have member' := (List.mem_cons.1 member).resolve_left e
      split
      · next q _ =>
        have same := writes i q s e
        exact ih nodup' member' (by rw [same, record]) fun t ht => own t (ht.trans same)
      · exact ih nodup' member' record own

theorem freeReporting_slot (i j : SlotId) (r : Record) (s : State) : (freeReporting i r s).slot j =
    if j = i then { gen := (s.slot i).gen + 1, record := none } else s.slot j := by
  rw [freeReporting, lastGrant_slot, freeRecord_slot]

/-- The slots whose records client `d` owns. -/
def ownedBy (d : ClientId) (s : State) : List SlotId := slotsWhere (fun r => decide (r.owner = d)) s

/-- The part after a CLOSE_CLIENT has freed every record of the client, before its entry is closed. -/
def recordsFreed (d : ClientId) (s : State) : State := overRecords freeReporting (ownedBy d s) s

theorem closeEntry_eq (d : ClientId) (s : State) : closeEntry d s =
    handOnChange (endings (recordsOf (ownedBy d s) s)) ((recordsFreed d s).setClient d Client.closed) := rfl

theorem mem_ownedBy {d : ClientId} : j ∈ ownedBy d s ↔ ∃ r, (s.slot j).record = some r ∧ r.owner = d := by
  rw [ownedBy, mem_slotsWhere]
  cases (s.slot j).record <;> simp

theorem recordsFreed_slot (d : ClientId) (s : State) (j : SlotId) : (recordsFreed d s).slot j =
    if j ∈ ownedBy d s then { gen := (s.slot j).gen + 1, record := none } else s.slot j := by
  have writes : ∀ i r t, j ≠ i → (freeReporting i r t).slot j = t.slot j :=
    fun i r t other => by rw [freeReporting_slot, if_neg other]
  split
  · next member =>
    obtain ⟨r, record, -⟩ := mem_ownedBy.1 member
    exact overRecords_slot (slotsWhere_nodup _ s) member writes record
      fun t same => by rw [freeReporting_slot, if_pos rfl, same]
  · next out => exact overRecords_slot_other writes out

theorem recordsFreed_owner {d : ClientId} (record : ((recordsFreed d s).slot j).record = some r) : r.owner ≠ d := by
  rw [recordsFreed_slot] at record
  split at record
  · cases record
  · next out => exact fun owner => out (mem_ownedBy.2 ⟨r, record, owner⟩)

theorem SumsExact.recordsFreed (h : SumsExact s) (d : ClientId) : SumsExact (Machine.recordsFreed d s) :=
  overRecords_keeps (P := SumsExact) h fun _ _ _ _ record ht => ht.freeReporting record

/-- Closing the entry of a client without records moves no figure. -/
theorem SumsExact.setClosed (h : SumsExact s) {d : ClientId} (none : ∀ j r, (s.slot j).record = some r → r.owner ≠ d) :
    SumsExact (s.setClient d Client.closed) := by
  have zero {v : Record → Nat} : sumOver (fun r => only (decide (r.owner = d)) (v r)) s = 0 :=
    sumOver_eq_zero fun j r record => by simp [only, none j r record]
  exact h.congr (fun _ _ => rfl) (figure_setClient ((h.client d).trans zero).symm ((h.held d).trans zero).symm
    ((h.occupied d).trans zero).symm)

theorem SumsExact.closeEntry (h : SumsExact s) (d : ClientId) : SumsExact (Machine.closeEntry d s) :=
  ((h.recordsFreed d).setClosed fun _ _ record => recordsFreed_owner record).handOn _ _

/-! ## Every change -/

theorem SumsExact.grow (h : SumsExact s) (record : (s.slot i).record = some r) (active : r.isActive = true) (a : Nat) :
    SumsExact (Machine.grow i r a s) := by
  obtain ⟨p, l, live⟩ := Record.phase_of_active active
  exact (h.changeAmount record live a).congr (fun _ _ => rfl) fun g => by cases g <;> rfl

/-- ACK of the NOTICED record `r`: its notice ends, an unread REDUCE leaves its set, and its amount changes (R90). -/
theorem acceptNotice_eq {p : Bool} {l : Option Tick} {n : Notice} (record : (s.slot i).record = some r)
    (noticed : r.phase = .live p l (some n)) (a : Nat) :
    acceptNotice i a s =
      changeAmount i { r with phase := .live p l none, kinds := { r.kinds with reduce := false } } a
        (setKinds i { r with phase := .live p l none } { r.kinds with reduce := false } (noticeEnded i r p l n s)) := by
  simp only [acceptNotice, endNotice_noticed record noticed, noticeEnded_slot, if_pos]

theorem SumsExact.acceptNotice (h : SumsExact s) {n : Notice} (record : (s.slot i).record = some r)
    (noticed : r.notice? = some n) (a : Nat) : SumsExact (Machine.acceptNotice i a s) := by
  obtain ⟨p, l, live⟩ := Record.phase_of_notice noticed
  rw [acceptNotice_eq record live]
  refine ((h.noticeEnded record live).setKinds ?_ _).changeAmount ?_ rfl a
  · rw [noticeEnded_slot, if_pos rfl]
  · rw [setKinds_slot, if_pos rfl]

theorem ChannelWrite.countsKept {y : Channel} (write : ChannelWrite s n y) : CountsKept (s.channel n) y := by
  cases write with
  | level | clean | unlock => exact ⟨rfl, rfl, rfl⟩
  | discharged => split <;> exact ⟨rfl, rfl, rfl⟩
  | key k v =>
    unfold Channel.keyWritten
    dsimp only
    split
    · unfold Channel.enableWritten
      split <;> exact ⟨rfl, rfl, rfl⟩
    · exact ⟨rfl, rfl, rfl⟩

theorem SumsExact.deliver (h : SumsExact s) (record : (s.slot i).record = some r) :
    SumsExact (Machine.deliver i r s) := by
  unfold Machine.deliver
  split
  · exact h.freeRecord record
  · exact h.setKinds record _

/-- Changes of the settings, of the budget unit, of the controller state and of the shed state move no figure. -/
theorem SumsExact.rebudget (h : SumsExact s) : SumsExact (Machine.rebudget s) := by
  obtain ⟨-, e⟩ | ⟨-, e⟩ := rebudget_cases s <;> rw [e]
  · exact h
  · exact SumsExact.handOn (h.same (.budget s _)) _ _

theorem Move.keeps_sums (move : Move s t) (h : SumsExact s) : SumsExact t := by
  cases move with
  | aside same => exact h.aside same
  | enter can => exact h.admitRequest (by simpa using List.find?_some can.free) _ _
  | queue can => exact h.queueRequest (by simpa using List.find?_some can.free) _ _
  | free record => exact (h.freeReporting record).handOn _ _
  | retire reason record => exact (h.retireReporting record reason).handOn _ _
  | shrink record active =>
    obtain ⟨p, l, live⟩ := Record.phase_of_active active
    exact (h.changeAmount record live _).handOn _ _
  | grow record active => exact h.grow record active _
  | accept record noticed => exact (h.acceptNotice record noticed _).handOn _ _
  | renew record live => exact h.setRecord record (Figure.weight_live live rfl)
  | extend record live => exact h.setRecord record (Figure.weight_live live rfl)
  | deliver head record => exact h.deliver record
  | openSession => exact h.congr (fun _ _ => rfl) (figure_setClient rfl rfl rfl)
  | closeSession => exact h.closeEntry _
  | setting walks => exact SumsExact.handOn (h.same (.setting s _)) _ _
  | budget => exact SumsExact.rebudget (h.same (.setting s _))
  | start => exact SumsExact.congr (h.same (.mode s .run)) (fun _ _ => rfl) (figure_setClient rfl rfl rfl)
  | hold => exact h.same (.mode s _)
  | resume => exact SumsExact.walk (h.same (.mode s _))
  | safe | restart => exact (SumsExact.bulkClear s).same (by constructor <;> rfl)
  | channel write => exact h.setChannel write.countsKept
  | cool => exact SumsExact.walk (h.setChannel ⟨rfl, rfl, rfl⟩)
  | fault cause => exact h.fault _ cause
  | comeUp => exact h.comeUp _
  | settle => exact SumsExact.rebudget (h.same (.selectTier s _))
  | lineChange v => exact h.same (.takeLineChange s v)

theorem State.slot_atRelease (pins : Pins) (s : State) (j : SlotId) :
    (atRelease pins s).slot j = { gen := 0, record := none } := by
  simp [atRelease, State.reset, State.slot]

theorem State.channel_atRelease (pins : Pins) (s : State) (n : ChannelId) :
    (atRelease pins s).channel n = Channel.reset (pins.pg.getLsbD n.val) (pins.fltN.getLsbD n.val) := by
  simp [atRelease, State.channel]

theorem State.client_atRelease (pins : Pins) (s : State) (c : ClientId) :
    (atRelease pins s).client c = Client.closed := by
  simp [atRelease, State.reset, State.client]

theorem SumsExact.atRelease (pins : Pins) (s : State) : SumsExact (Machine.atRelease pins s) := by
  refine .of_empty (fun i => by rw [State.slot_atRelease]) fun g => ?_
  cases g with
  | committed | relief => rfl
  | sum n | live n | queued n => simp only [Figure.of, State.channel_atRelease, Channel.reset]
  | client c | held c | occupied c => simp only [Figure.of, State.client_atRelease, Client.closed]

/-- Settles O12: each change of the part keeps every figure exact, and so does a chain of them. -/
theorem sumsStayExact : Obligations.SumsStayExact := by
  intro s t h next
  exact step_keeps (P := SumsExact) (fun s l h => h.same (.pending s l)) (fun s t move h => move.keeps_sums h)
    (fun s h => h.same (.advance s)) (fun pins s _ => .atRelease pins s) h next

end Sys2Proof.Machine
end

section
/-! PROOF. O13: every change of the part keeps the admission list, the wait queue and the shed list exactly their records,
the wait queue by class and within its 16 places (R19, R63, R80). -/

namespace Sys2Proof.Machine

variable {s t u : State} {i j : SlotId} {r r' : Record} {c : ClientId} {n : ChannelId} {a : Ask}
variable {f : Record → Bool} {l l' : List SlotId} {b : Bool}

/-! ## A list of the records of one sort -/

theorem Holds.congr (h : Holds f l s) (same : ∀ j, (t.slot j).record.any f = (s.slot j).record.any f) : Holds f l t :=
  ⟨h.once, fun j => by rw [same]; exact h.exactly j⟩

theorem Holds.perm (h : Holds f l s) (p : l'.Perm l) : Holds f l' s :=
  ⟨p.nodup_iff.2 h.once, fun j => by rw [p.mem_iff]; exact h.exactly j⟩

theorem Holds.not_mem (h : Holds f l s) (no : (s.slot i).record.any f = false) : i ∉ l := by
  rw [h.exactly, no]
  exact Bool.false_ne_true

theorem without_of_not_mem (out : i ∉ l) : without i l = l :=
  List.filter_eq_self.2 fun j hj => by simpa using ne_of_mem_of_not_mem hj out

/-- A slot whose record is of the sort no more leaves the list; one that was in no way of the sort may stay unsought. -/
theorem Holds.leave (h : Holds f l s) (others : ∀ j, j ≠ i → (t.slot j).record = (s.slot j).record)
    (gone : (t.slot i).record.any f = false) (sought : (s.slot i).record.any f = true → b = true) :
    Holds f (if b then without i l else l) t := by
  have left : Holds f (without i l) t := by
    refine ⟨h.once.filter _, fun j => ?_⟩
    rw [mem_without, h.exactly]
    by_cases e : j = i
    · subst e
      simp [gone]
    · simp [others j e, e]
  cases b with
  | true => exact left
  | false =>
    have out : i ∉ l := h.not_mem (Bool.eq_false_iff.2 fun yes => Bool.false_ne_true (sought yes))
    rw [without_of_not_mem out] at left
    exact left

/-- A slot whose record has become of the sort joins the list. -/
theorem Holds.join (h : Holds f l s) (others : ∀ j, j ≠ i → (t.slot j).record = (s.slot j).record)
    (before : (s.slot i).record.any f = false) (now : (t.slot i).record.any f = true) : Holds f (l ++ [i]) t := by
  have out := h.not_mem before
  refine ⟨List.nodup_append.2 ⟨h.once, List.nodup_singleton i, ?_⟩, fun j => ?_⟩
  · intro x hx y hy e
    exact out ((List.mem_singleton.1 hy) ▸ e ▸ hx)
  · rw [List.mem_append, h.exactly, List.mem_singleton]
    by_cases e : j = i
    · subst e
      simp [now]
    · simp [others j e, e]

/-! ## The collections together -/

/-- What the collections depend on in a record. -/
def Record.standing (r : Record) : Bool × Bool × Bool × Fin 4 := (r.isLive, r.isQueued, r.notice?.isSome, r.cls)

/-- Every slot's record stands in the collections as it did. -/
def SameStanding (s t : State) : Prop :=
  ∀ j, (t.slot j).record.map Record.standing = (s.slot j).record.map Record.standing

theorem SameStanding.any (h : SameStanding s t) (j : SlotId) (k : Bool × Bool × Bool × Fin 4 → Bool) :
    (t.slot j).record.any (fun r => k r.standing) = (s.slot j).record.any fun r => k r.standing := by
  have := h j
  cases e : (t.slot j).record <;> cases e' : (s.slot j).record <;> simp_all

theorem SameStanding.classOf (h : SameStanding s t) (j : SlotId) : classOf t j = classOf s j := by
  have := h j
  unfold Machine.classOf
  cases e : (t.slot j).record <;> cases e' : (s.slot j).record <;> simp_all [Record.standing]

theorem SameStanding.of_slots (h : ∀ j, (t.slot j).record = (s.slot j).record) : SameStanding s t := fun j => by rw [h j]

theorem SameStanding.setRecord (record : (s.slot i).record = some r) (same : r'.standing = r.standing) :
    SameStanding s (s.setRecord i r') := by
  intro j
  rw [State.slot_setRecord]
  split
  · next e =>
    subst e
    simp [record, same]
  · rfl

/-- The collections stay exact where neither the lists nor the standing of the records change. -/
theorem CollectionsExact.congr (h : CollectionsExact s) (same : SameStanding s t)
    (admission : t.admission = s.admission) (waitQueue : t.waitQueue = s.waitQueue)
    (shedList : t.shedList = s.shedList) : CollectionsExact t where
  admission := admission ▸ h.admission.congr fun j => same.any j (·.1)
  waitQueue := waitQueue ▸ h.waitQueue.congr fun j => same.any j (·.2.1)
  byClass   := by simpa only [waitQueue, same.classOf] using h.byClass
  atMost    := waitQueue ▸ h.atMost
  shedList  := shedList ▸ h.shedList.congr fun j => same.any j (·.2.2.1)

theorem CollectionsExact.same (h : CollectionsExact s) (same : SameRecords s t) : CollectionsExact t :=
  h.congr (.of_slots fun j => by rw [same.slot]) same.admission same.waitQueue same.shedList

theorem CollectionsExact.aside (h : CollectionsExact s) (same : Aside s t) : CollectionsExact t :=
  h.same same.sameRecords

/-- The class of a slot whose record is the same. -/
theorem classOf_congr (h : (t.slot j).record = (s.slot j).record) : classOf t j = classOf s j := by
  simp only [classOf, h]

/-- A part of the wait queue, with its records as they were, is by class. -/
theorem CollectionsExact.byClass_sublist (h : CollectionsExact s) (part : l.Sublist s.waitQueue)
    (same : ∀ j ∈ l, classOf t j = classOf s j) : l.Pairwise fun i j => classOf t i ≤ classOf t j :=
  (h.byClass.sublist part).imp_of_mem fun {x y} hx hy le => by rwa [same x hx, same y hy]

theorem ite_without_sublist (b : Bool) (i : SlotId) (l : List SlotId) :
    (if b then without i l else l).Sublist l := by
  split
  · exact List.filter_sublist
  · exact List.Sublist.refl l

/-- The record of slot `i` is in no collection any more, and leaves those that it was in. -/
theorem CollectionsExact.leave (h : CollectionsExact s) (record : (s.slot i).record = some r)
    (others : ∀ j, j ≠ i → (t.slot j).record = (s.slot j).record)
    (notLive : (t.slot i).record.any Record.isLive = false)
    (notQueued : (t.slot i).record.any Record.isQueued = false)
    (notNoticed : (t.slot i).record.any (fun r => r.notice?.isSome) = false)
    (admission : t.admission = if r.isLive then without i s.admission else s.admission)
    (waitQueue : t.waitQueue = if r.isQueued then without i s.waitQueue else s.waitQueue)
    (shedList : t.shedList = if r.isLive then without i s.shedList else s.shedList) : CollectionsExact t where
  admission := admission ▸ h.admission.leave others notLive (by simp [record])
  waitQueue := waitQueue ▸ h.waitQueue.leave others notQueued (by simp [record])
  byClass := by
    have left := h.waitQueue.leave (b := r.isQueued) others notQueued (by simp [record])
    rw [waitQueue]
    refine h.byClass_sublist (ite_without_sublist ..) fun j hj => classOf_congr (others j fun e => ?_)
    subst e
    rw [left.exactly, notQueued] at hj
    exact Bool.false_ne_true hj
  atMost := by
    rw [waitQueue]
    exact (ite_without_sublist ..).length_le.trans h.atMost
  shedList := shedList ▸ h.shedList.leave others notNoticed
    (by simpa [record] using fun noticed => Record.isLive_of_notice noticed)

/-! ## Freeing and retirement -/

theorem lastGrant_lists (r : Record) (s : State) : (lastGrant r s).admission = s.admission ∧
    (lastGrant r s).waitQueue = s.waitQueue ∧ (lastGrant r s).shedList = s.shedList := by
  rw [lastGrant_eq]
  exact ⟨rfl, rfl, rfl⟩

theorem CollectionsExact.lastGrant (h : CollectionsExact s) (r : Record) : CollectionsExact (Machine.lastGrant r s) :=
  let ⟨admission, waitQueue, shedList⟩ := lastGrant_lists r s
  h.congr (.of_slots fun j => by rw [lastGrant_slot]) admission waitQueue shedList

theorem CollectionsExact.freeRecord (h : CollectionsExact s) (record : (s.slot i).record = some r) :
    CollectionsExact (Machine.freeRecord i r s) := by
  have free : ((Machine.freeRecord i r s).slot i).record = none := by rw [freeRecord_slot, if_pos rfl]
  refine h.leave record (fun j other => by rw [freeRecord_slot, if_neg other]) ?_ ?_ ?_ (detach_admission i r s)
    (detach_waitQueue i r s) (detach_shedList i r s)
  all_goals rw [free]; rfl

theorem CollectionsExact.freeReporting (h : CollectionsExact s) (record : (s.slot i).record = some r) :
    CollectionsExact (Machine.freeReporting i r s) := (h.freeRecord record).lastGrant r

/-- A posting writes its slot and a notice queue, and none of the other lists. -/
theorem post_lists (i : SlotId) (kind : NoticeKind) (s : State) : (post i kind s).admission = s.admission ∧
    (post i kind s).waitQueue = s.waitQueue ∧ (post i kind s).shedList = s.shedList := by
  unfold post
  split <;> exact ⟨rfl, rfl, rfl⟩

theorem CollectionsExact.setKinds (h : CollectionsExact s) (record : (s.slot i).record = some r) (k : KindSet) :
    CollectionsExact (Machine.setKinds i r k s) :=
  h.congr (.setRecord (r' := { r with kinds := k }) record rfl) rfl rfl rfl

theorem CollectionsExact.post (h : CollectionsExact s) (i : SlotId) (kind : NoticeKind) :
    CollectionsExact (Machine.post i kind s) := by
  unfold Machine.post
  split
  · next record => exact h.setKinds record _
  · exact h

theorem CollectionsExact.retireRecord (h : CollectionsExact s) (record : (s.slot i).record = some r)
    (reason : Reason) : CollectionsExact (Machine.retireRecord i r reason s) := by
  obtain ⟨admission, waitQueue, shedList⟩ := post_lists i .retired
    ((detach i r s).setRecord i { r with phase := .retired reason })
  have tomb : ((Machine.retireRecord i r reason s).slot i).record = some (r.tombstone reason) := by
    rw [retireRecord_slot_same]
  refine h.leave record (fun j other => by rw [retireRecord_slot_other r reason s other]) ?_ ?_ ?_
    (admission.trans (detach_admission i r s)) (waitQueue.trans (detach_waitQueue i r s))
    (shedList.trans (detach_shedList i r s))
  all_goals rw [tomb]; rfl

theorem CollectionsExact.retireReporting (h : CollectionsExact s) (record : (s.slot i).record = some r)
    (reason : Reason) : CollectionsExact (Machine.retireReporting reason i r s) :=
  (h.retireRecord record reason).lastGrant r

/-! ## Admission and queueing -/

theorem CollectionsExact.admitQueued (h : CollectionsExact s) (record : (s.slot i).record = some r)
    (queued : r.isQueued = true) : CollectionsExact (Machine.admitQueued i s) := by
  have idle := Record.not_live_of_queued queued
  obtain ⟨kind, e⟩ := admitQueued_eq record
  rw [e]
  have others (j : SlotId) (other : j ≠ i) :
      ((enterLive i r (unqueue i r s)).slot j).record = (s.slot j).record := by
    rw [enterLive_slot_eq, if_neg other]
    rfl
  have now : ((enterLive i r (unqueue i r s)).slot i).record = some (r.entering (unqueue i r s)) := by
    rw [enterLive_slot_eq, if_pos rfl]
  have before (f : Record → Bool) (no : f r = false) : (s.slot i).record.any f = false := by simp [record, no]
  have noNotice : r.notice?.isSome = false :=
    Bool.eq_false_iff.2 fun noticed => Bool.false_ne_true (idle.symm.trans (Record.isLive_of_notice noticed))
  have left := h.waitQueue.leave (b := true) (t := enterLive i r (unqueue i r s)) others (by rw [now]; rfl) fun _ => rfl
  refine CollectionsExact.post ⟨?_, left, ?_, ?_, ?_⟩ i kind
  · exact h.admission.join others (before _ idle) (by rw [now]; rfl)
  · refine h.byClass_sublist (ite_without_sublist true i _) fun j hj => classOf_congr (others j fun e => ?_)
    subst e
    exact (mem_without.1 hj).2 rfl
  · exact (ite_without_sublist true i _).length_le.trans h.atMost
  · refine h.shedList.congr fun j => ?_
    by_cases other : j = i
    · subst other
      rw [now, before _ noNotice]
      rfl
    · rw [others j other]

theorem CollectionsExact.walk (h : CollectionsExact s) : CollectionsExact (Machine.walk s) :=
  walk_keeps h fun i t taken ht => by
    obtain ⟨r, record, queued, -⟩ := visit_take taken
    exact ht.admitQueued record queued

theorem any_of_free (free : (s.slot i).record = none) (f : Record → Bool) : (s.slot i).record.any f = false := by
  rw [free]
  rfl

theorem CollectionsExact.admitRequest (h : CollectionsExact s) (free : (s.slot i).record = none) (c : ClientId)
    (a : Ask) : CollectionsExact (Machine.admitRequest i c a s) := by
  have others (j : SlotId) (other : j ≠ i) : ((Machine.admitRequest i c a s).slot j).record = (s.slot j).record := by
    rw [Machine.admitRequest, enterLive_slot_eq, if_neg other]
    rfl
  have now : ((Machine.admitRequest i c a s).slot i).record =
      some ((recordOf c a (.live false none none)).entering (chargeClient c a.amount s)) := by
    rw [Machine.admitRequest, enterLive_slot_eq, if_pos rfl]
  have same (f : Record → Bool) (no : f ((recordOf c a (.live false none none)).entering (chargeClient c a.amount s))
      = false) (j : SlotId) : ((Machine.admitRequest i c a s).slot j).record.any f = (s.slot j).record.any f := by
    by_cases other : j = i
    · subst other
      rw [now, any_of_free free]
      exact no
    · rw [others j other]
  refine ⟨h.admission.join others (any_of_free free _) (by rw [now]; rfl), h.waitQueue.congr (same _ rfl), ?_,
    h.atMost, h.shedList.congr (same _ rfl)⟩
  refine h.byClass_sublist (List.Sublist.refl _) fun j hj => classOf_congr (others j fun e => ?_)
  exact h.waitQueue.not_mem (any_of_free free _) (e ▸ hj)

/-- The wait queue with a slot placed in it holds the same slots and the new one. -/
theorem enqueue_perm (i : SlotId) (cls : Fin 4) (s : State) : (enqueue i cls s).Perm (s.waitQueue ++ [i]) := by
  have worse : (s.waitQueue.filter fun j => decide (cls.val < classOf s j)) =
      s.waitQueue.filter fun j => !decide (classOf s j ≤ cls.val) := by
    refine List.filter_congr fun j _ => ?_
    rw [← decide_not, decide_eq_decide]
    omega
  unfold enqueue
  rw [worse, List.append_assoc]
  refine (List.Perm.append_left _ List.perm_append_comm).trans ?_
  rw [← List.append_assoc]
  exact List.Perm.append_right _ (List.filter_append_perm _ _)

theorem CollectionsExact.queueRequest (h : CollectionsExact s) (free : (s.slot i).record = none)
    (room : s.waitQueue.length < 16) (c : ClientId) (a : Ask) : CollectionsExact (Machine.queueRequest i c a s) := by
  have others (j : SlotId) (other : j ≠ i) : ((Machine.queueRequest i c a s).slot j).record = (s.slot j).record := by
    rw [queueRequest_slot, if_neg other]
  have now : ((Machine.queueRequest i c a s).slot i).record = some (recordOf c a (.queued (a.waitsUntil s))) := by
    rw [queueRequest_slot, if_pos rfl]
  have same (f : Record → Bool) (no : f (recordOf c a (.queued (a.waitsUntil s))) = false) (j : SlotId) :
      ((Machine.queueRequest i c a s).slot j).record.any f = (s.slot j).record.any f := by
    by_cases other : j = i
    · subst other
      rw [now, any_of_free free]
      exact no
    · rw [others j other]
  have waits : ∀ j ∈ s.waitQueue, classOf (Machine.queueRequest i c a s) j = classOf s j :=
    fun j hj => classOf_congr (others j fun e => h.waitQueue.not_mem (any_of_free free _) (e ▸ hj))
  have own : classOf (Machine.queueRequest i c a s) i = a.cls.val := by simp only [classOf, now, recordOf]
  have joined := h.waitQueue.join others (any_of_free free _) (by rw [now]; rfl)
  refine ⟨h.admission.congr (same _ rfl), joined.perm (enqueue_perm i a.cls s), ?_, ?_, h.shedList.congr (same _ rfl)⟩
  · change (enqueue i a.cls s).Pairwise _
    unfold enqueue
    simp only [List.append_assoc, List.pairwise_append, List.pairwise_singleton, List.mem_append,
      List.mem_singleton, List.mem_filter, decide_eq_true_eq, true_and]
    refine ⟨h.byClass_sublist List.filter_sublist fun j hj => waits j (List.mem_of_mem_filter hj),
      ⟨h.byClass_sublist List.filter_sublist fun j hj => waits j (List.mem_of_mem_filter hj), ?_⟩, ?_⟩
    · rintro x rfl y ⟨hy, worse⟩
      rw [own, waits y hy]
      exact worse.le
    · rintro x ⟨hx, better⟩ y (rfl | ⟨hy, worse⟩)
      · rwa [own, waits x hx]
      · rw [waits x hx, waits y hy]
        omega
  · change (enqueue i a.cls s).length ≤ 16
    rw [(enqueue_perm i a.cls s).length_eq, List.length_append, List.length_singleton]
    omega

/-! ## Notices -/

theorem CollectionsExact.noticeEnded (h : CollectionsExact s) (record : (s.slot i).record = some r) {p : Bool}
    {l : Option Tick} {n : Notice} (noticed : r.phase = .live p l (some n)) :
    CollectionsExact (Machine.noticeEnded i r p l n s) := by
  have others (j : SlotId) (other : j ≠ i) :
      ((Machine.noticeEnded i r p l n s).slot j).record = (s.slot j).record := by
    rw [noticeEnded_slot, if_neg other]
  have now : ((Machine.noticeEnded i r p l n s).slot i).record = some { r with phase := .live p l none } := by
    rw [noticeEnded_slot, if_pos rfl]
  have same (f : Record → Bool) (e : f { r with phase := .live p l none } = f r) (j : SlotId) :
      ((Machine.noticeEnded i r p l n s).slot j).record.any f = (s.slot j).record.any f := by
    by_cases other : j = i
    · subst other
      rw [now, record]
      exact e
    · rw [others j other]
  refine ⟨h.admission.congr (same _ (by simp [Record.isLive, noticed])),
    h.waitQueue.congr (same _ (by simp [Record.isQueued, noticed])), ?_, h.atMost,
    h.shedList.leave (b := true) others (by rw [now]; rfl) fun _ => rfl⟩
  refine h.byClass_sublist (List.Sublist.refl _) fun j hj => classOf_congr (others j fun e => ?_)
  refine h.waitQueue.not_mem ?_ (e ▸ hj)
  simp [record, Record.isQueued, noticed]

theorem CollectionsExact.withdrawNotice (h : CollectionsExact s) (record : (s.slot i).record = some r)
    (noticed : r.notice?.isSome = true) : CollectionsExact (Machine.withdrawNotice i s) := by
  obtain ⟨n, hn⟩ := Option.isSome_iff_exists.1 noticed
  obtain ⟨p, l, live⟩ := Record.phase_of_notice hn
  rw [Machine.withdrawNotice, endNotice_noticed record live]
  exact (h.noticeEnded record live).post i _

theorem CollectionsExact.setNotice (h : CollectionsExact s) (record : (s.slot i).record = some r) {p : Bool}
    {l : Option Tick} (active : r.phase = .live p l none) (q : Nat) :
    CollectionsExact (Machine.setNotice i r p l q s) := by
  have others (j : SlotId) (other : j ≠ i) :
      ((Machine.setNotice i r p l q s).slot j).record = (s.slot j).record := by
    rw [setNotice_slot, State.slot_setRecord, if_neg other]
  have now : ((Machine.setNotice i r p l q s).slot i).record =
      some { r with phase := .live p l (some (freshNotice q s)) } := by
    rw [setNotice_slot, State.slot_setRecord_same]
  have same (f : Record → Bool) (e : f { r with phase := .live p l (some (freshNotice q s)) } = f r) (j : SlotId) :
      ((Machine.setNotice i r p l q s).slot j).record.any f = (s.slot j).record.any f := by
    by_cases other : j = i
    · subst other
      rw [now, record]
      exact e
    · rw [others j other]
  refine ⟨h.admission.congr (same _ (by simp [Record.isLive, active])),
    h.waitQueue.congr (same _ (by simp [Record.isQueued, active])), ?_, h.atMost,
    h.shedList.join others (by simp [record, Record.notice?, active]) (by rw [now]; rfl)⟩
  refine h.byClass_sublist (List.Sublist.refl _) fun j hj => classOf_congr (others j fun e => ?_)
  refine h.waitQueue.not_mem ?_ (e ▸ hj)
  simp [record, Record.isQueued, active]

theorem CollectionsExact.postReduce (h : CollectionsExact s) (i : SlotId) (q : Nat) :
    CollectionsExact (Machine.postReduce i q s) := by
  obtain e | ⟨r, p, l, record, active, e⟩ := postReduce_cases i q s
  · rwa [e]
  · rw [e]
    exact (h.setNotice record active q).post i _

theorem CollectionsExact.evaluate (h : CollectionsExact s) : CollectionsExact (Machine.evaluate s) :=
  evaluate_keepsAll h (fun i q _ ht => ht.postReduce i q)
    (fun _ _ _ record noticed ht => ht.withdrawNotice record noticed) fun _ x f ht => ht.same (.shed _ x f)

theorem CollectionsExact.handOn (h : CollectionsExact s) (e w : Bool) : CollectionsExact (Machine.handOn e w s) :=
  handOn_keepsAll e w h (fun _ ht => ht.evaluate) fun _ ht => ht.walk

/-! ## Changes that keep the standing of records -/

theorem CollectionsExact.setRecord (h : CollectionsExact s) (record : (s.slot i).record = some r)
    (same : r'.standing = r.standing) : CollectionsExact (s.setRecord i r') :=
  h.congr (.setRecord record same) rfl rfl rfl

theorem CollectionsExact.changeAmount (h : CollectionsExact s) (record : (s.slot i).record = some r) (a : Nat) :
    CollectionsExact (Machine.changeAmount i r a s) :=
  (h.setRecord (r' := r.reamounted a) record rfl).congr (.of_slots fun _ => rfl) rfl rfl rfl

/-- A live record stands as it did with another powered field, lease deadline, or notice in the place of a notice. -/
theorem Record.standing_live {p p' : Bool} {l l' : Option Tick} {x y : Option Notice} (live : r.phase = .live p l x)
    (notice : y.isSome = x.isSome) : ({ r with phase := .live p' l' y } : Record).standing = r.standing := by
  simp [Record.standing, Record.isLive, Record.isQueued, Record.notice?, live, notice]

/-- The newest end of the admission list is still the list's (R75). -/
theorem CollectionsExact.grow (h : CollectionsExact s) (record : (s.slot i).record = some r)
    (active : r.isActive = true) (a : Nat) : CollectionsExact (Machine.grow i r a s) := by
  obtain ⟨p, l, live⟩ := Record.phase_of_active active
  have changed := h.changeAmount record a
  have member : i ∈ s.admission := by
    rw [h.admission.exactly]
    simp [record, Record.isLive, live]
  have moved : (without i s.admission ++ [i]).Perm s.admission := by
    have key := (List.perm_append_singleton i (s.admission.erase i)).trans (List.perm_cons_erase member).symm
    rwa [List.Nodup.erase_eq_filter h.admission.once] at key
  exact ⟨(changed.admission.perm moved).congr fun _ => rfl, changed.waitQueue.congr fun _ => rfl, changed.byClass,
    changed.atMost, changed.shedList.congr fun _ => rfl⟩

theorem CollectionsExact.acceptNotice (h : CollectionsExact s) {n : Notice} (record : (s.slot i).record = some r)
    (noticed : r.notice? = some n) (a : Nat) : CollectionsExact (Machine.acceptNotice i a s) := by
  obtain ⟨p, l, live⟩ := Record.phase_of_notice noticed
  rw [acceptNotice_eq record live]
  refine ((h.noticeEnded record live).setKinds ?_ _).changeAmount ?_ a
  · rw [noticeEnded_slot, if_pos rfl]
  · rw [setKinds_slot, if_pos rfl]

theorem CollectionsExact.markPowered (h : CollectionsExact s) (record : (s.slot i).record = some r) :
    CollectionsExact (Machine.markPowered i r s) := by
  unfold Machine.markPowered
  split
  · next live => exact (h.setRecord record (Record.standing_live live rfl)).post i _
  · exact h

theorem CollectionsExact.setChannel (h : CollectionsExact s) (n : ChannelId) (x : Channel) :
    CollectionsExact (s.setChannel n x) := h.congr (.of_slots fun _ => rfl) rfl rfl rfl

theorem CollectionsExact.setClient (h : CollectionsExact s) (c : ClientId) (o : Client) :
    CollectionsExact (s.setClient c o) := h.congr (.of_slots fun _ => rfl) rfl rfl rfl

theorem CollectionsExact.comeUp (h : CollectionsExact s) (n : ChannelId) : CollectionsExact (Machine.comeUp n s) := by
  unfold Machine.comeUp
  dsimp only
  split
  · refine CollectionsExact.aside ?_ (.nextOrder _)
    exact overRecords_keeps (h.setChannel _ _) fun i r t _ record ht => ht.markPowered record
  · exact h

theorem CollectionsExact.faultEntered (h : CollectionsExact s) (n : ChannelId) (cause : Cause) :
    CollectionsExact (Machine.faultEntered n cause s) := by
  have written := h.setChannel n ((s.channel n).faultedAt s.tick cause)
  obtain ⟨-, e⟩ | ⟨-, e⟩ := faultEntered_cases n cause s <;> rw [e]
  · exact (written.aside (.raise _ _)).aside (.raise _ _)
  · exact written.aside (.raise _ _)

theorem CollectionsExact.faultRetired (h : CollectionsExact s) (n : ChannelId) (cause : Cause) :
    CollectionsExact (Machine.faultRetired n cause s) :=
  CollectionsExact.aside (overRecords_keeps (P := CollectionsExact) (h.faultEntered n cause)
    fun _ _ _ _ record ht => ht.retireRecord record _) (.nextOrder _)

theorem CollectionsExact.fault (h : CollectionsExact s) (n : ChannelId) (cause : Cause) :
    CollectionsExact (Machine.fault n cause s) := by
  rw [fault_eq]
  exact (h.faultRetired n cause).handOn _ _

theorem CollectionsExact.recordsFreed (h : CollectionsExact s) (d : ClientId) :
    CollectionsExact (Machine.recordsFreed d s) :=
  overRecords_keeps (P := CollectionsExact) h fun _ _ _ _ record ht => ht.freeReporting record

theorem Holds.of_free (free : ∀ i, (s.slot i).record = none) (f : Record → Bool) : Holds f [] s :=
  ⟨List.nodup_nil, fun i => by simp [free i]⟩

/-- An empty table with empty lists. -/
theorem CollectionsExact.of_empty (free : ∀ i, (s.slot i).record = none) (admission : s.admission = [])
    (waitQueue : s.waitQueue = []) (shedList : s.shedList = []) : CollectionsExact s where
  admission := admission ▸ .of_free free _
  waitQueue := waitQueue ▸ .of_free free _
  byClass   := by rw [waitQueue]; exact .nil
  atMost    := by simp [waitQueue]
  shedList  := shedList ▸ .of_free free _

theorem CollectionsExact.bulkClear (s : State) : CollectionsExact (Machine.bulkClear s) :=
  .of_empty (fun i => by rw [bulkClear_slot, Slot.cleared_record]) rfl rfl rfl

theorem CollectionsExact.rebudget (h : CollectionsExact s) : CollectionsExact (Machine.rebudget s) := by
  obtain ⟨-, e⟩ | ⟨-, e⟩ := rebudget_cases s <;> rw [e]
  · exact h
  · exact CollectionsExact.handOn (h.same (.budget s _)) _ _

theorem Move.keeps_collections (move : Move s t) (h : CollectionsExact s) : CollectionsExact t := by
  cases move with
  | aside same => exact h.aside same
  | enter can => exact h.admitRequest (by simpa using List.find?_some can.free) _ _
  | queue can room => exact h.queueRequest (by simpa using List.find?_some can.free) room _ _
  | free record => exact (h.freeReporting record).handOn _ _
  | retire reason record => exact (h.retireReporting record reason).handOn _ _
  | shrink record => exact (h.changeAmount record _).handOn _ _
  | grow record active => exact h.grow record active _
  | accept record noticed => exact (h.acceptNotice record noticed _).handOn _ _
  | renew record live => exact h.setRecord record (Record.standing_live live rfl)
  | extend record live => exact h.setRecord record (Record.standing_live live rfl)
  | deliver head record =>
    unfold Machine.deliver
    split
    · exact h.freeRecord record
    · exact h.setKinds record _
  | openSession => exact h.setClient _ _
  | closeSession => exact ((h.recordsFreed _).setClient _ _).handOn _ _
  | setting walks => exact CollectionsExact.handOn (h.same (.setting s _)) _ _
  | budget => exact CollectionsExact.rebudget (h.same (.setting s _))
  | start => exact CollectionsExact.setClient (h.same (.mode s .run)) _ _
  | hold => exact h.same (.mode s _)
  | resume => exact CollectionsExact.walk (h.same (.mode s _))
  | safe | restart => exact (CollectionsExact.bulkClear s).same (by constructor <;> rfl)
  | channel write => exact h.setChannel _ _
  | cool => exact CollectionsExact.walk (h.setChannel _ _)
  | fault cause => exact h.fault _ cause
  | comeUp => exact h.comeUp _
  | settle => exact CollectionsExact.rebudget (h.same (.selectTier s _))
  | lineChange v => exact h.same (.takeLineChange s v)

/-- Settles O13: each change of the part keeps the three lists exact, and so does a chain of them. -/
theorem collectionsStayExact : Obligations.CollectionsStayExact := by
  intro s t h next
  exact step_keeps (P := CollectionsExact) (fun s l h => h.same (.pending s l))
    (fun s t move h => move.keeps_collections h) (fun s h => h.same (.advance s))
    (fun pins s _ => .of_empty (fun i => by rw [State.slot_atRelease]) rfl rfl rfl) h next

end Sys2Proof.Machine
end

section
/-! PROOF. O14: every change of the part keeps each notice queue exactly its client's records with pending kinds, and
RETIRED the one pending kind of every tombstone and of no other record (R137, R139). -/

namespace Sys2Proof.Machine

variable {s t u : State} {i j : SlotId} {r r' : Record} {c d : ClientId} {n : ChannelId} {a : Ask} {k : KindSet}

/-! ## The two parts of the relation -/

/-- A record of client `c` with pending kinds. -/
def Record.notifies (c : ClientId) (r : Record) : Bool := decide (r.owner = c) && !r.kinds.isEmpty

/-- Every notice queue holds exactly its client's records with pending kinds. -/
def QueuesExact (s : State) : Prop := ∀ c, Holds (Record.notifies c) (s.client c).notices s

/-- RETIRED is pending exactly, and alone, for a tombstone. -/
def Record.kindsOk (r : Record) : Prop :=
  (r.isRetired = true → r.kinds = { retired := true }) ∧ (r.kinds.retired = true → r.isRetired = true)

/-- Every record has the pending kinds that its state allows. -/
def KindsExact (s : State) : Prop := ∀ i r, (s.slot i).record = some r → r.kindsOk

theorem noticesExact_iff : NoticesExact s ↔ QueuesExact s ∧ KindsExact s :=
  ⟨fun h => ⟨h.queue, h.retired⟩, fun ⟨queue, retired⟩ => ⟨queue, retired⟩⟩

/-! ## Queues -/

/-- What a notice queue depends on in a record. -/
def Record.address (r : Record) : ClientId × KindSet := (r.owner, r.kinds)

theorem QueuesExact.congr (h : QueuesExact s)
    (same : ∀ j, (t.slot j).record.map Record.address = (s.slot j).record.map Record.address)
    (notices : ∀ c, (t.client c).notices = (s.client c).notices) : QueuesExact t := by
  intro c
  rw [notices c]
  refine (h c).congr fun j => ?_
  have := same j
  cases e : (t.slot j).record <;> cases e' : (s.slot j).record <;> simp_all [Record.address, Record.notifies]

theorem QueuesExact.setRecord (h : QueuesExact s) (record : (s.slot i).record = some r)
    (same : r'.address = r.address) : QueuesExact (s.setRecord i r') := by
  refine h.congr (fun j => ?_) fun _ => rfl
  rw [State.slot_setRecord]
  split
  · next e =>
    subst e
    simp [record, same]
  · rfl

/-- A record without pending kinds joins no queue. -/
theorem QueuesExact.newRecord (h : QueuesExact s) (free : (s.slot i).record = none)
    (others : ∀ j, j ≠ i → (t.slot j).record = (s.slot j).record) (now : (t.slot i).record = some r)
    (quiet : r.kinds = {}) (notices : ∀ c, (t.client c).notices = (s.client c).notices) : QueuesExact t := by
  intro c
  rw [notices c]
  refine (h c).congr fun j => ?_
  by_cases other : j = i
  · subst other
    simp [now, free, Record.notifies, quiet, KindSet.isEmpty]
  · rw [others j other]

theorem setKinds_notices (i : SlotId) (r : Record) (k : KindSet) (s : State) (c : ClientId) :
    ((setKinds i r k s).client c).notices =
      if c = r.owner then
        (if k.isEmpty then without i (s.client c).notices
         else if r.kinds.isEmpty then (s.client c).notices ++ [i] else (s.client c).notices)
      else (s.client c).notices := by
  simp only [setKinds, State.client_setClient, State.client_setRecord]
  split
  · next e => rw [e]
  · rfl

theorem QueuesExact.setKinds (h : QueuesExact s) (record : (s.slot i).record = some r) (k : KindSet) :
    QueuesExact (Machine.setKinds i r k s) := by
  intro c
  have others (j : SlotId) (other : j ≠ i) : ((Machine.setKinds i r k s).slot j).record = (s.slot j).record := by
    rw [setKinds_slot, if_neg other]
  have now : ((Machine.setKinds i r k s).slot i).record = some { r with kinds := k } := by
    rw [setKinds_slot, if_pos rfl]
  rw [setKinds_notices]
  split
  · next own =>
    subst own
    split
    · next empty => exact (h _).leave (b := true) others (by simp [now, Record.notifies, empty]) fun _ => rfl
    · next filled =>
      split
      · next empty =>
        exact (h _).join others (by simp [record, Record.notifies, empty]) (by simp [now, Record.notifies, filled])
      · next full =>
        refine (h _).congr fun j => ?_
        by_cases other : j = i
        · subst other
          simp [now, record, Record.notifies, filled, full]
        · rw [others j other]
  · next foreign =>
    refine (h c).congr fun j => ?_
    by_cases other : j = i
    · subst other
      simp [now, record, Record.notifies, Ne.symm foreign]
    · rw [others j other]

theorem QueuesExact.post (h : QueuesExact s) (i : SlotId) (kind : NoticeKind) : QueuesExact (Machine.post i kind s) := by
  unfold Machine.post
  split
  · next record => exact h.setKinds record _
  · exact h

theorem QueuesExact.freeRecord (h : QueuesExact s) (record : (s.slot i).record = some r) :
    QueuesExact (Machine.freeRecord i r s) := by
  intro c
  have others (j : SlotId) (other : j ≠ i) : ((Machine.freeRecord i r s).slot j).record = (s.slot j).record := by
    rw [freeRecord_slot, if_neg other]
  have gone : ((Machine.freeRecord i r s).slot i).record.any (Record.notifies c) = false := by
    rw [freeRecord_slot, if_pos rfl]
    rfl
  have notices : ((Machine.freeRecord i r s).client c).notices =
      if decide (r.owner = c) then without i (s.client c).notices else (s.client c).notices := by
    rw [freeRecord_client]
    by_cases own : c = r.owner
    · simp [own]
    · simp [own, Ne.symm own]
  rw [notices]
  exact (h c).leave others gone (by simpa [record, Record.notifies] using fun own _ => own)

theorem lastGrant_client (r : Record) (s : State) (c : ClientId) : (lastGrant r s).client c = s.client c := by
  rw [lastGrant_eq]
  rfl

theorem detach_notices (i : SlotId) (r : Record) (s : State) (c : ClientId) :
    ((detach i r s).client c).notices = (s.client c).notices := by
  rw [detach_client_eq]
  split <;> rfl

theorem QueuesExact.retireRecord (h : QueuesExact s) (record : (s.slot i).record = some r) (reason : Reason) :
    QueuesExact (Machine.retireRecord i r reason s) := by
  have detached : QueuesExact (detach i r s) :=
    h.congr (fun j => by rw [detach_slot]) fun c => detach_notices i r s c
  have buried : QueuesExact ((detach i r s).setRecord i { r with phase := .retired reason }) :=
    detached.setRecord (r := r) (by rw [detach_slot, record]) rfl
  exact buried.post i _

/-! ## Kinds -/

theorem KindsExact.congr (h : KindsExact s) (same : ∀ j, (t.slot j).record = (s.slot j).record) : KindsExact t :=
  fun j r record => h j r ((same j).symm.trans record)

/-- One slot changes: its record, if any, must have the kinds that its state allows. -/
theorem KindsExact.change (h : KindsExact s) (others : ∀ j, j ≠ i → (t.slot j).record = (s.slot j).record)
    (own : ∀ r, (t.slot i).record = some r → r.kindsOk) : KindsExact t := by
  intro j r record
  by_cases other : j = i
  · subst other
    exact own r record
  · exact h j r ((others j other).symm.trans record)

theorem KindsExact.setRecord (h : KindsExact s) (i : SlotId) (ok : r'.kindsOk) : KindsExact (s.setRecord i r') := by
  refine h.change (i := i) (fun j other => by rw [State.slot_setRecord_other s r' other]) fun r record => ?_
  rw [State.slot_setRecord_same] at record
  cases record
  exact ok

/-- A record that is no tombstone and has no RETIRED pending. -/
theorem Record.kindsOk_of_standing (standing : r.isRetired = false) (quiet : r.kinds.retired = false) : r.kindsOk :=
  ⟨fun retired => by simp [standing] at retired, fun retired => by simp [quiet] at retired⟩

theorem Record.kindsOk.quiet (h : r.kindsOk) (standing : r.isRetired = false) : r.kinds.retired = false :=
  Bool.eq_false_iff.2 fun retired => by simp [h.2 retired] at standing

/-- Every kind but RETIRED leaves RETIRED out of the set (R137). -/
theorem KindSet.merge_retired {kind : NoticeKind} (other : kind ≠ .retired) (k : KindSet) :
    (k.merge kind).retired = k.retired := by
  cases kind with
  | retired => exact absurd rfl other
  | withdrawn => unfold KindSet.merge; dsimp only; split <;> rfl
  | _ => rfl

theorem KindsExact.setKinds (h : KindsExact s) (i : SlotId) (ok : ({ r with kinds := k } : Record).kindsOk) :
    KindsExact (Machine.setKinds i r k s) :=
  (h.setRecord i ok).congr fun _ => rfl

/-- A posting to a record that is no tombstone. -/
theorem KindsExact.post (h : KindsExact s) (i : SlotId) {kind : NoticeKind} (other : kind ≠ .retired)
    (standing : ∀ r, (s.slot i).record = some r → r.isRetired = false) : KindsExact (Machine.post i kind s) := by
  unfold Machine.post
  split
  · next r record =>
    have quiet := (h i r record).quiet (standing r record)
    refine h.setKinds i (Record.kindsOk_of_standing (r := { r with kinds := r.kinds.merge kind }) ?_ ?_)
    · exact standing r record
    · exact (KindSet.merge_retired other _).trans quiet
  · exact h

theorem KindsExact.retireRecord (h : KindsExact s) (i : SlotId) (r : Record) (reason : Reason) :
    KindsExact (Machine.retireRecord i r reason s) := by
  refine h.change (i := i) (fun j other => by rw [retireRecord_slot_other r reason s other]) fun q record => ?_
  rw [retireRecord_slot_same] at record
  cases record
  exact ⟨fun _ => rfl, fun _ => rfl⟩

/-! ## Both together -/

theorem NoticesExact.congr (h : NoticesExact s) (same : ∀ j, (t.slot j).record = (s.slot j).record)
    (notices : ∀ c, (t.client c).notices = (s.client c).notices) : NoticesExact t := by
  obtain ⟨queues, kinds⟩ := noticesExact_iff.1 h
  exact noticesExact_iff.2 ⟨queues.congr (fun j => by rw [same j]) notices, kinds.congr same⟩

theorem NoticesExact.same (h : NoticesExact s) (same : SameRecords s t) : NoticesExact t :=
  h.congr (fun j => by rw [same.slot]) fun c => by rw [same.client]

theorem NoticesExact.aside (h : NoticesExact s) (same : Aside s t) : NoticesExact t := h.same same.sameRecords

theorem NoticesExact.freeRecord (h : NoticesExact s) (record : (s.slot i).record = some r) :
    NoticesExact (Machine.freeRecord i r s) := by
  obtain ⟨queues, kinds⟩ := noticesExact_iff.1 h
  refine noticesExact_iff.2 ⟨queues.freeRecord record, kinds.change (i := i) (fun j other => ?_) fun q now => ?_⟩
  · rw [freeRecord_slot, if_neg other]
  · rw [freeRecord_slot, if_pos rfl] at now
    cases now

theorem NoticesExact.lastGrant (h : NoticesExact s) (r : Record) : NoticesExact (Machine.lastGrant r s) :=
  h.congr (fun j => by rw [lastGrant_slot]) fun c => by rw [lastGrant_client]

theorem NoticesExact.freeReporting (h : NoticesExact s) (record : (s.slot i).record = some r) :
    NoticesExact (Machine.freeReporting i r s) := (h.freeRecord record).lastGrant r

theorem NoticesExact.retireRecord (h : NoticesExact s) (record : (s.slot i).record = some r) (reason : Reason) :
    NoticesExact (Machine.retireRecord i r reason s) := by
  obtain ⟨queues, kinds⟩ := noticesExact_iff.1 h
  exact noticesExact_iff.2 ⟨queues.retireRecord record reason, kinds.retireRecord i r reason⟩

theorem NoticesExact.retireReporting (h : NoticesExact s) (record : (s.slot i).record = some r) (reason : Reason) :
    NoticesExact (Machine.retireReporting reason i r s) := (h.retireRecord record reason).lastGrant r

/-- A record that keeps its owner and its kinds, and is a tombstone no more and no less than it was. -/
theorem NoticesExact.setRecord (h : NoticesExact s) (record : (s.slot i).record = some r)
    (same : r'.address = r.address) (retired : r'.isRetired = r.isRetired) : NoticesExact (s.setRecord i r') := by
  obtain ⟨queues, kinds⟩ := noticesExact_iff.1 h
  refine noticesExact_iff.2 ⟨queues.setRecord record same, kinds.setRecord i ?_⟩
  have ok := kinds i r record
  have kindsSame : r'.kinds = r.kinds := congrArg Prod.snd same
  rwa [Record.kindsOk, kindsSame, retired]

theorem NoticesExact.post (h : NoticesExact s) (i : SlotId) {kind : NoticeKind} (other : kind ≠ .retired)
    (standing : ∀ r, (s.slot i).record = some r → r.isRetired = false) : NoticesExact (Machine.post i kind s) := by
  obtain ⟨queues, kinds⟩ := noticesExact_iff.1 h
  exact noticesExact_iff.2 ⟨queues.post i kind, kinds.post i other standing⟩

/-- A record without pending kinds in a slot that was FREE. -/
theorem NoticesExact.newRecord (h : NoticesExact s) (free : (s.slot i).record = none)
    (others : ∀ j, j ≠ i → (t.slot j).record = (s.slot j).record) (now : (t.slot i).record = some r)
    (quiet : r.kinds = {}) (standing : r.isRetired = false)
    (notices : ∀ c, (t.client c).notices = (s.client c).notices) : NoticesExact t := by
  obtain ⟨queues, kinds⟩ := noticesExact_iff.1 h
  refine noticesExact_iff.2 ⟨queues.newRecord free others now quiet notices, kinds.change others fun q record => ?_⟩
  rw [now] at record
  cases record
  exact Record.kindsOk_of_standing standing (by rw [quiet])

theorem enterLive_notices (i : SlotId) (r : Record) (s : State) (c : ClientId) :
    ((enterLive i r s).client c).notices = (s.client c).notices := by
  rw [enterLive_client]
  split <;> rfl

theorem chargeClient_notices (c : ClientId) (amount : Nat) (s : State) (d : ClientId) :
    ((chargeClient c amount s).client d).notices = (s.client d).notices := by
  rw [chargeClient_client]
  split <;> rfl

theorem NoticesExact.admitRequest (h : NoticesExact s) (free : (s.slot i).record = none) (c : ClientId) (a : Ask) :
    NoticesExact (Machine.admitRequest i c a s) := by
  refine h.newRecord (r := (recordOf c a (.live false none none)).entering (chargeClient c a.amount s)) free
    (fun j other => ?_) ?_ rfl rfl fun d => ?_
  · rw [Machine.admitRequest, enterLive_slot_eq, if_neg other]
    rfl
  · rw [Machine.admitRequest, enterLive_slot_eq, if_pos rfl]
  · rw [Machine.admitRequest, enterLive_notices, chargeClient_notices]

theorem NoticesExact.queueRequest (h : NoticesExact s) (free : (s.slot i).record = none) (c : ClientId) (a : Ask) :
    NoticesExact (Machine.queueRequest i c a s) := by
  refine h.newRecord (r := recordOf c a (.queued (a.waitsUntil s))) free (fun j other => ?_) ?_ rfl rfl fun d => ?_
  · rw [queueRequest_slot, if_neg other]
  · rw [queueRequest_slot, if_pos rfl]
  · rw [queueRequest_client]
    split <;> rfl

/-! ## Hand-offs -/

/-- Changes of the phase alone, among those that a record which is no tombstone can take. -/
theorem NoticesExact.phase (h : NoticesExact s) (record : (s.slot i).record = some r) (standing : r.isRetired = false)
    {f : Phase} (live : ({ r with phase := f } : Record).isRetired = false)
    (slots : ∀ j, (t.slot j).record = ((s.setRecord i { r with phase := f }).slot j).record)
    (notices : ∀ c, (t.client c).notices = (s.client c).notices) : NoticesExact t :=
  (h.setRecord (r' := { r with phase := f }) record rfl (live.trans standing.symm)).congr slots notices

theorem NoticesExact.admitQueued (h : NoticesExact s) (record : (s.slot i).record = some r)
    (queued : r.isQueued = true) : NoticesExact (Machine.admitQueued i s) := by
  obtain ⟨kind, other, e⟩ : ∃ kind, kind ≠ .retired ∧
      Machine.admitQueued i s = Machine.post i kind (enterLive i r (unqueue i r s)) := by
    refine ⟨if (s.channel r.channel).state = .on then .ready else .admitted, ?_, ?_⟩
    · split <;> exact NoticeKind.noConfusion
    · simp only [Machine.admitQueued, record]
      rfl
  have entered : NoticesExact (enterLive i r (unqueue i r s)) := by
    refine h.phase record (Record.not_retired_of_queued queued) (f := (r.entering (unqueue i r s)).phase) rfl
      (fun j => ?_) fun c => enterLive_notices i r _ c
    rw [enterLive_slot_eq, State.slot_setRecord]
    rfl
  rw [e]
  refine entered.post i other fun q now => ?_
  rw [enterLive_slot_eq, if_pos rfl] at now
  cases now
  rfl

theorem NoticesExact.walk (h : NoticesExact s) : NoticesExact (Machine.walk s) :=
  walk_keeps h fun i t taken ht => by
    obtain ⟨r, record, queued, -⟩ := visit_take taken
    exact ht.admitQueued record queued

theorem Record.not_retired_of_live {p : Bool} {l : Option Tick} {x : Option Notice} (live : r.phase = .live p l x) :
    r.isRetired = false := by simp [Record.isRetired, live]

theorem NoticesExact.noticeEnded (h : NoticesExact s) (record : (s.slot i).record = some r) {p : Bool}
    {l : Option Tick} {n : Notice} (noticed : r.phase = .live p l (some n)) :
    NoticesExact (Machine.noticeEnded i r p l n s) :=
  h.phase record (Record.not_retired_of_live noticed) (f := .live p l none) rfl (fun _ => rfl) fun _ => rfl

theorem NoticesExact.withdrawNotice (h : NoticesExact s) (record : (s.slot i).record = some r)
    (noticed : r.notice?.isSome = true) : NoticesExact (Machine.withdrawNotice i s) := by
  obtain ⟨n, hn⟩ := Option.isSome_iff_exists.1 noticed
  obtain ⟨p, l, live⟩ := Record.phase_of_notice hn
  rw [Machine.withdrawNotice, endNotice_noticed record live]
  refine (h.noticeEnded record live).post i NoticeKind.noConfusion fun q now => ?_
  rw [noticeEnded_slot, if_pos rfl] at now
  cases now
  rfl

theorem NoticesExact.postReduce (h : NoticesExact s) (i : SlotId) (q : Nat) :
    NoticesExact (Machine.postReduce i q s) := by
  obtain e | ⟨r, p, l, record, active, e⟩ := postReduce_cases i q s
  · rwa [e]
  · have posted : NoticesExact (setNotice i r p l q s) :=
      h.phase record (Record.not_retired_of_live active) (f := .live p l (some (freshNotice q s))) rfl (fun _ => rfl)
        fun _ => rfl
    rw [e]
    refine posted.post i NoticeKind.noConfusion fun x now => ?_
    rw [setNotice_slot, State.slot_setRecord_same] at now
    cases now
    rfl

theorem NoticesExact.evaluate (h : NoticesExact s) : NoticesExact (Machine.evaluate s) :=
  evaluate_keepsAll h (fun i q _ ht => ht.postReduce i q)
    (fun _ _ _ record noticed ht => ht.withdrawNotice record noticed) fun _ x f ht => ht.same (.shed _ x f)

theorem NoticesExact.handOn (h : NoticesExact s) (e w : Bool) : NoticesExact (Machine.handOn e w s) :=
  handOn_keepsAll e w h (fun _ ht => ht.evaluate) fun _ ht => ht.walk

/-! ## Every change -/

theorem NoticesExact.setChannel (h : NoticesExact s) (n : ChannelId) (x : Channel) :
    NoticesExact (s.setChannel n x) := h.congr (fun _ => rfl) fun _ => rfl

theorem NoticesExact.setClient (h : NoticesExact s) {o : Client} (notices : o.notices = (s.client d).notices) :
    NoticesExact (s.setClient d o) := by
  refine h.congr (fun _ => rfl) fun c => ?_
  rw [State.client_setClient]
  split
  · next e => rw [notices, e]
  · rfl

theorem NoticesExact.changeAmount (h : NoticesExact s) (record : (s.slot i).record = some r) (a : Nat) :
    NoticesExact (Machine.changeAmount i r a s) := by
  refine (h.setRecord (r' := r.reamounted a) record rfl rfl).congr (fun _ => rfl) fun c => ?_
  rw [changeAmount_client]
  split <;> rfl

theorem NoticesExact.acceptNotice (h : NoticesExact s) {n : Notice} (record : (s.slot i).record = some r)
    (noticed : r.notice? = some n) (a : Nat) : NoticesExact (Machine.acceptNotice i a s) := by
  obtain ⟨p, l, live⟩ := Record.phase_of_notice noticed
  rw [acceptNotice_eq record live]
  obtain ⟨queues, kinds⟩ := noticesExact_iff.1 (h.noticeEnded record live)
  have quiet := ((noticesExact_iff.1 h).2 i r record).quiet (Record.not_retired_of_live live)
  have now : ((Machine.noticeEnded i r p l n s).slot i).record = some { r with phase := .live p l none } := by
    rw [noticeEnded_slot, if_pos rfl]
  refine NoticesExact.changeAmount (noticesExact_iff.2 ⟨queues.setKinds now _, kinds.setKinds i ?_⟩) ?_ a
  · exact Record.kindsOk_of_standing rfl quiet
  · rw [setKinds_slot, if_pos rfl]

theorem NoticesExact.deliver (h : NoticesExact s) (record : (s.slot i).record = some r) :
    NoticesExact (Machine.deliver i r s) := by
  unfold Machine.deliver
  split
  · exact h.freeRecord record
  · next quiet =>
    obtain ⟨queues, kinds⟩ := noticesExact_iff.1 h
    have standing : r.isRetired = false :=
      Bool.eq_false_iff.2 fun retired => quiet (by rw [(kinds i r record).1 retired])
    exact noticesExact_iff.2 ⟨queues.setKinds record _,
      kinds.setKinds i (Record.kindsOk_of_standing (r := { r with kinds := {} }) standing rfl)⟩

theorem NoticesExact.markPowered (h : NoticesExact s) (record : (s.slot i).record = some r) :
    NoticesExact (Machine.markPowered i r s) := by
  unfold Machine.markPowered
  split
  · next p x live =>
    have powered : NoticesExact (s.setRecord i { r with phase := .live true p x }) :=
      h.setRecord record rfl (by simp [Record.isRetired, live])
    refine powered.post i NoticeKind.noConfusion fun q now => ?_
    rw [State.slot_setRecord_same] at now
    cases now
    rfl
  · exact h

theorem NoticesExact.comeUp (h : NoticesExact s) (n : ChannelId) : NoticesExact (Machine.comeUp n s) := by
  unfold Machine.comeUp
  dsimp only
  split
  · refine NoticesExact.aside ?_ (.nextOrder _)
    exact overRecords_keeps (h.setChannel _ _) fun i r t _ record ht => ht.markPowered record
  · exact h

theorem NoticesExact.faultEntered (h : NoticesExact s) (n : ChannelId) (cause : Cause) :
    NoticesExact (Machine.faultEntered n cause s) := by
  have written := h.setChannel n ((s.channel n).faultedAt s.tick cause)
  obtain ⟨-, e⟩ | ⟨-, e⟩ := faultEntered_cases n cause s <;> rw [e]
  · exact (written.aside (.raise _ _)).aside (.raise _ _)
  · exact written.aside (.raise _ _)

theorem NoticesExact.faultRetired (h : NoticesExact s) (n : ChannelId) (cause : Cause) :
    NoticesExact (Machine.faultRetired n cause s) :=
  NoticesExact.aside (overRecords_keeps (P := NoticesExact) (h.faultEntered n cause)
    fun _ _ _ _ record ht => ht.retireRecord record _) (.nextOrder _)

theorem NoticesExact.fault (h : NoticesExact s) (n : ChannelId) (cause : Cause) :
    NoticesExact (Machine.fault n cause s) := by
  rw [fault_eq]
  exact (h.faultRetired n cause).handOn _ _

theorem NoticesExact.recordsFreed (h : NoticesExact s) (d : ClientId) : NoticesExact (Machine.recordsFreed d s) :=
  overRecords_keeps (P := NoticesExact) h fun _ _ _ _ record ht => ht.freeReporting record

/-- A client without records has an empty notice queue. -/
theorem NoticesExact.setClosed (h : NoticesExact s) (none : ∀ j r, (s.slot j).record = some r → r.owner ≠ d) :
    NoticesExact (s.setClient d Client.closed) := by
  refine h.setClient (List.eq_nil_iff_forall_not_mem.2 fun j member => ?_).symm
  obtain ⟨r, record, own, -⟩ : ∃ r, (s.slot j).record = some r ∧ r.owner = d ∧ r.kinds.isEmpty = false := by
    simpa [Option.any_eq_true] using ((h.queue d).exactly j).1 member
  exact none j r record own

/-- An empty table with empty notice queues. -/
theorem NoticesExact.of_empty (free : ∀ i, (s.slot i).record = none) (notices : ∀ c, (s.client c).notices = []) :
    NoticesExact s :=
  ⟨fun c => by rw [notices c]; exact .of_free free _, fun i r record => by simp [free i] at record⟩

theorem NoticesExact.bulkClear (s : State) : NoticesExact (Machine.bulkClear s) :=
  .of_empty (fun i => by rw [bulkClear_slot, Slot.cleared_record]) fun c => by rw [bulkClear_client]; rfl

theorem NoticesExact.rebudget (h : NoticesExact s) : NoticesExact (Machine.rebudget s) := by
  obtain ⟨-, e⟩ | ⟨-, e⟩ := rebudget_cases s <;> rw [e]
  · exact h
  · exact NoticesExact.handOn (h.same (.budget s _)) _ _

theorem Move.keeps_notices (move : Move s t) (h : NoticesExact s) : NoticesExact t := by
  cases move with
  | aside same => exact h.aside same
  | enter can => exact h.admitRequest (by simpa using List.find?_some can.free) _ _
  | queue can => exact h.queueRequest (by simpa using List.find?_some can.free) _ _
  | free record => exact (h.freeReporting record).handOn _ _
  | retire reason record => exact (h.retireReporting record reason).handOn _ _
  | shrink record => exact (h.changeAmount record _).handOn _ _
  | grow record => exact (h.changeAmount record _).congr (fun _ => rfl) fun _ => rfl
  | accept record noticed => exact (h.acceptNotice record noticed _).handOn _ _
  | renew record live => exact h.setRecord record rfl (by simp [Record.isRetired, live])
  | extend record live => exact h.setRecord record rfl (by simp [Record.isRetired, live])
  | deliver head record => exact h.deliver record
  | openSession => exact h.setClient rfl
  | closeSession => exact ((h.recordsFreed _).setClosed fun _ _ record => recordsFreed_owner record).handOn _ _
  | setting walks => exact NoticesExact.handOn (h.same (.setting s _)) _ _
  | budget => exact NoticesExact.rebudget (h.same (.setting s _))
  | start => exact NoticesExact.setClient (h.same (.mode s .run)) rfl
  | hold => exact h.same (.mode s _)
  | resume => exact NoticesExact.walk (h.same (.mode s _))
  | safe | restart => exact (NoticesExact.bulkClear s).same (by constructor <;> rfl)
  | channel write => exact h.setChannel _ _
  | cool => exact NoticesExact.walk (h.setChannel _ _)
  | fault cause => exact h.fault _ cause
  | comeUp => exact h.comeUp _
  | settle => exact NoticesExact.rebudget (h.same (.selectTier s _))
  | lineChange v => exact h.same (.takeLineChange s v)

/-- Settles O14: each change of the part keeps the notice queues exact, and so does a chain of them. -/
theorem noticeQueuesStayExact : Obligations.NoticeQueuesStayExact := by
  intro s t h next
  exact step_keeps (P := NoticesExact) (fun s l h => h.same (.pending s l))
    (fun s t move h => move.keeps_notices h) (fun s h => h.same (.advance s))
    (fun pins s _ => .of_empty (fun i => by rw [State.slot_atRelease])
      fun c => by rw [State.client_atRelease]; rfl) h next

end Sys2Proof.Machine
end

section
/-! PROOF. What every change keeps of the counter, the budget unit, the settings and client 0's session. Most changes are
steady: they leave the rest of the part, the profiles and the rights as they were; `Basis` lists what the others write. -/

namespace Sys2Proof.Machine

variable {s t u : State} {i j : SlotId} {r r' : Record} {c d : ClientId} {n m : ChannelId} {a : Ask} {x y : Channel}
variable {f : SlotId → Prop} {g : ChannelId → Prop}

/-! ## Steady changes -/

/-- The rest of the part, the ports, every profile and every client's rights are as they were. -/
structure Steady (s t : State) : Prop where
  part    : SamePart s t
  ports   : SamePorts s t
  profile : ∀ n, (t.channel n).profile = (s.channel n).profile
  rights  : ∀ c, RightsKept (s.client c) (t.client c)

theorem Steady.refl (s : State) : Steady s s := ⟨.refl s, .refl s, fun _ => rfl, fun _ => .refl _⟩

theorem Steady.trans (a : Steady s t) (b : Steady t u) : Steady s u :=
  ⟨a.part.trans b.part, a.ports.trans b.ports, fun n => (b.profile n).trans (a.profile n), fun c => (a.rights c).trans (b.rights c)⟩

theorem GrantFrame.steady (h : GrantFrame f (fun _ => False) s t) (ports : SamePorts s t) : Steady s t :=
  ⟨h.part, ports, fun n => (h.channels n id).profile, h.rights⟩

theorem HandOff.steady (h : HandOff s t) : Steady s t := h.frame.steady h.ports

theorem Steady.setRecord (i : SlotId) (r : Record) (s : State) : Steady s (s.setRecord i r) :=
  ⟨by constructor <;> rfl, ⟨rfl, rfl, rfl⟩, fun _ => rfl, fun _ => .refl _⟩

theorem Steady.setClient {o : Client} (kept : RightsKept (s.client c) o) : Steady s (s.setClient c o) :=
  ((GrantFrame.refl (fun _ => True) (fun _ => False) s).setClient kept).steady ⟨rfl, rfl, rfl⟩

theorem Steady.setChannel (kept : x.profile = (s.channel n).profile) : Steady s (s.setChannel n x) := by
  refine ⟨by constructor <;> rfl, ⟨rfl, rfl, rfl⟩, fun m => ?_, fun _ => .refl _⟩
  rw [State.channel_setChannel]
  split
  · next e => rw [kept, e]
  · rfl

theorem Steady.setKinds (i : SlotId) (r : Record) (k : KindSet) (s : State) : Steady s (Machine.setKinds i r k s) :=
  (Steady.setRecord i _ s).trans (.setClient (by constructor <;> rfl))

theorem Steady.post (i : SlotId) (kind : NoticeKind) (s : State) : Steady s (Machine.post i kind s) := by
  unfold Machine.post
  split
  · exact .setKinds ..
  · exact .refl s

theorem Steady.freeRecord (i : SlotId) (r : Record) (s : State) : Steady s (Machine.freeRecord i r s) := by
  have detached := detach_frame (f := fun _ => True) (g := fun _ => False) i r (GrantFrame.refl _ _ s)
  exact ((detached.setClient (by constructor <;> rfl)).setSlot (i := i) _ trivial).steady
    ((detach_ports i r s).trans ⟨rfl, rfl, rfl⟩)

theorem Steady.freeReporting (i : SlotId) (r : Record) (s : State) : Steady s (Machine.freeReporting i r s) :=
  (Steady.freeRecord i r s).trans (lastGrant_handOff r _).steady

theorem Steady.retireRecord (i : SlotId) (r : Record) (reason : Reason) (s : State) :
    Steady s (Machine.retireRecord i r reason s) :=
  (retireRecord_frame r reason (GrantFrame.refl (fun _ => True) (fun _ => False) s) trivial).steady
    (retireRecord_ports ..)

theorem Steady.retireReporting (i : SlotId) (r : Record) (reason : Reason) (s : State) :
    Steady s (Machine.retireReporting reason i r s) :=
  (Steady.retireRecord i r reason s).trans (lastGrant_handOff r _).steady

theorem Steady.changeAmount (i : SlotId) (r : Record) (a : Nat) (s : State) : Steady s (Machine.changeAmount i r a s) :=
  (changeAmount_reamounts i r a s).frame.steady ⟨rfl, rfl, rfl⟩

theorem Steady.grow (i : SlotId) (r : Record) (a : Nat) (s : State) : Steady s (Machine.grow i r a s) :=
  (Steady.changeAmount i r a s).trans ⟨by constructor <;> rfl, ⟨rfl, rfl, rfl⟩, fun _ => rfl, fun _ => .refl _⟩

theorem Steady.acceptNotice (i : SlotId) (a : Nat) (s : State) : Steady s (Machine.acceptNotice i a s) := by
  unfold Machine.acceptNotice
  dsimp only
  split
  · exact ((endNotice_handOff i s).steady.trans (.setKinds ..)).trans (.changeAmount ..)
  · exact (endNotice_handOff i s).steady

theorem Steady.enterLive (i : SlotId) (r : Record) (s : State) : Steady s (Machine.enterLive i r s) := by
  refine ⟨by constructor <;> rfl, ⟨rfl, rfl, rfl⟩, fun n => ?_, fun c => ?_⟩
  · rw [enterLive_channel]
    split
    · exact (ChannelKept.gain ..).profile
    · rfl
  · rw [enterLive_client]
    split <;> constructor <;> rfl

theorem Steady.admitRequest (i : SlotId) (c : ClientId) (a : Ask) (s : State) :
    Steady s (Machine.admitRequest i c a s) :=
  (Steady.setClient (by constructor <;> rfl)).trans (.enterLive ..)

theorem Steady.queueRequest (i : SlotId) (c : ClientId) (a : Ask) (s : State) :
    Steady s (Machine.queueRequest i c a s) := by
  refine ⟨by constructor <;> rfl, ⟨rfl, rfl, rfl⟩, fun n => ?_, fun d => ?_⟩
  · rw [queueRequest_channel]
    split <;> rfl
  · rw [queueRequest_client]
    split <;> constructor <;> rfl

theorem Steady.deliver (i : SlotId) (r : Record) (s : State) : Steady s (Machine.deliver i r s) := by
  unfold Machine.deliver
  split
  · exact .freeRecord ..
  · exact .setKinds ..

theorem Steady.nextOrder (s : State) : Steady s (Machine.nextOrder s) :=
  ⟨by constructor <;> rfl, ⟨rfl, rfl, rfl⟩, fun _ => rfl, fun _ => .refl _⟩

theorem Steady.markPowered (i : SlotId) (r : Record) (s : State) : Steady s (Machine.markPowered i r s) := by
  unfold Machine.markPowered
  split
  · exact (Steady.setRecord ..).trans (.post ..)
  · exact .refl s

theorem Steady.comeUp (n : ChannelId) (s : State) : Steady s (Machine.comeUp n s) := by
  unfold Machine.comeUp
  dsimp only
  split
  · refine Steady.trans ?_ (.nextOrder _)
    exact overRecords_keeps (P := Steady s) (.setChannel rfl) fun i r t _ _ same => same.trans (.markPowered i r t)
  · exact .refl s

theorem OnlyCounts.profile (h : OnlyCounts x y) : y.profile = x.profile := by
  rw [h]

theorem Steady.fault (n : ChannelId) (cause : Cause) (s : State) : Steady s (Machine.fault n cause s) := by
  have frame := fault_frame n cause s
  refine ⟨frame.part, fault_ports n cause s, fun m => ?_, frame.rights⟩
  by_cases here : m = n
  · subst here
    exact (fault_channel m cause s).profile
  · exact (frame.channels m here).profile

theorem Steady.recordsFreed (d : ClientId) (s : State) : Steady s (Machine.recordsFreed d s) :=
  overRecords_keeps (P := Steady s) (.refl s) fun i r t _ _ same => same.trans (.freeReporting i r t)

theorem Steady.handOn (e w : Bool) (s : State) : Steady s (Machine.handOn e w s) := (handOn_handOff e w s).steady
/-! ## What is not steady -/

/-- What a change writes beside what is steady. -/
inductive Basis (s : State) : State → Prop where
  | same : Basis s s
  | aside {t : State} (same : Aside s t) : Basis s t
  | session {d : ClientId} {o : Client} (plain : d ≠ 0) : Basis s (s.setClient d o)
  | setting {g : Settings} (ranges : s.settings.Within → g.Within)
      (tiers : g.tierBudget[s.selected] = s.settings.tierBudget[s.selected])
      (cap : g.budgetCap = s.settings.budgetCap) : Basis s { s with settings := g }
  | budget {g : Settings} (ranges : s.settings.Within → g.Within) :
      Basis s { s with settings := g, budget := budgetNow { s with settings := g } }
  | start : Basis s (started s)
  | hold (run : s.mode = .run) : Basis s { s with mode := .hold }
  | resume (hold : s.mode = .hold) : Basis s (resumed s)
  | safe : Basis s (safeEntry s)
  | restart : Basis s (restartPart s)
  | channel {n : ChannelId} {y : Channel} (write : ChannelWrite s n y) : Basis s (s.setChannel n y)
  | settle (v : Tier) : Basis s { selectTier v s with budget := budgetNow (selectTier v s) }
  | lineChange (v : Tier) : Basis s (takeLineChange v s)

theorem Steady.rebudget (s : State) : Steady { s with budget := budgetNow s } (Machine.rebudget s) :=
  (rebudget_handOff s).steady

theorem Steady.closeEntry (d : ClientId) (s : State) : Steady (s.setClient d Client.closed) (Machine.closeEntry d s) := by
  have freed := Steady.recordsFreed d s
  refine Steady.trans (t := (Machine.recordsFreed d s).setClient d Client.closed) ⟨?_, ?_, freed.profile, fun c => ?_⟩
    (.handOn ..)
  · have part := freed.part
    constructor
    all_goals simp only [State.setClient, part.tick, part.settleTimer, part.selected, part.pendingTier, part.budget,
      part.mode, part.settings, part.safeHeld, part.resetSafe, part.address, part.tierLines, part.safePin, part.addrPin,
      part.pending]
  · exact ⟨freed.ports.clientPort, freed.ports.managementPort, freed.ports.response⟩
  · rw [State.client_setClient, State.client_setClient]
    split
    · exact .refl _
    · exact freed.rights c

/-- Every change is a basis, and what is steady from it on. -/
theorem Move.basis (move : Move s t) : ∃ u, Basis s u ∧ Steady u t := by
  cases move with
  | aside same => exact ⟨t, .aside same, .refl t⟩
  | enter => exact ⟨s, .same, .admitRequest ..⟩
  | queue => exact ⟨s, .same, .queueRequest ..⟩
  | free => exact ⟨s, .same, (Steady.freeReporting ..).trans (.handOn ..)⟩
  | retire => exact ⟨s, .same, (Steady.retireReporting ..).trans (.handOn ..)⟩
  | shrink => exact ⟨s, .same, (Steady.changeAmount ..).trans (.handOn ..)⟩
  | grow => exact ⟨s, .same, .grow ..⟩
  | accept => exact ⟨s, .same, (Steady.acceptNotice ..).trans (.handOn ..)⟩
  | renew | extend => exact ⟨s, .same, .setRecord ..⟩
  | deliver => exact ⟨s, .same, .deliver ..⟩
  | openSession plain => exact ⟨_, .session plain, .refl _⟩
  | closeSession plain => exact ⟨_, .session plain, .closeEntry ..⟩
  | setting walks ranges tiers cap => exact ⟨_, .setting ranges tiers cap, .handOn ..⟩
  | @budget g ranges => exact ⟨_, .budget ranges, .rebudget { s with settings := g }⟩
  | start => exact ⟨_, .start, .refl _⟩
  | hold run => exact ⟨_, .hold run, .refl _⟩
  | resume hold => exact ⟨_, .resume hold, (walk_handOff (resumed s)).steady⟩
  | safe => exact ⟨_, .safe, .refl _⟩
  | restart => exact ⟨_, .restart, .refl _⟩
  | channel write => exact ⟨_, .channel write, .refl _⟩
  | cool => exact ⟨s, .same, (cooledDown_handOff _ s).steady.trans (walk_handOff _).steady⟩
  | fault => exact ⟨s, .same, .fault ..⟩
  | comeUp => exact ⟨s, .same, .comeUp ..⟩
  | settle => exact ⟨_, .settle _, .rebudget _⟩
  | lineChange v => exact ⟨_, .lineChange v, .refl _⟩

/-! ## The counter and the sender's queue -/

/-- The counter and the sender's queue are as they were. -/
structure ClockKept (s t : State) : Prop where
  tick    : t.tick = s.tick
  pending : t.pending = s.pending

theorem ClockKept.trans (a : ClockKept s t) (b : ClockKept t u) : ClockKept s u :=
  ⟨b.tick.trans a.tick, b.pending.trans a.pending⟩

theorem takeLineChange_clock (v : Tier) (s : State) : ClockKept s (takeLineChange v s) := by
  by_cases same : v = s.selected
  · rw [takeLineChange_selected same]
    exact ⟨rfl, rfl⟩
  · rw [takeLineChange_other same]
    exact ⟨rfl, rfl⟩

theorem Basis.clock (basis : Basis s t) : ClockKept s t := by
  cases basis with
  | aside same => exact ⟨same.tick, same.pending⟩
  | lineChange v => exact takeLineChange_clock v s
  | _ => exact ⟨rfl, rfl⟩

/-- No change of the part writes the counter or the sender's queue. -/
theorem Move.clock (move : Move s t) : ClockKept s t := by
  obtain ⟨u, basis, steady⟩ := move.basis
  exact basis.clock.trans ⟨steady.part.tick, steady.part.pending⟩

theorem Moves.clock (moves : Moves s t) : ClockKept s t :=
  moves.keeps (P := ClockKept s) ⟨rfl, rfl⟩ fun _ _ move kept => kept.trans move.clock

theorem exec_pending {i : Instr} (next : exec i s = .next t) : t.pending = s.pending := by
  obtain moves | ⟨-, u, moves, rfl⟩ | ⟨pins, -, rfl⟩ := exec_cases next
  · exact moves.clock.pending
  · exact moves.clock.pending
  · rfl

/-! ## The budget unit -/

theorem BudgetUnitOk.steady (h : BudgetUnitOk s) (same : Steady s t) : BudgetUnitOk t := by
  obtain ⟨budget, settle, differs⟩ := h
  refine ⟨?_, ?_, ?_⟩
  · simp only [same.part.budget, same.part.settings, same.part.selected, budget]
  · rw [same.part.pendingTier, same.part.settleTimer, settle]
  · rwa [same.part.pendingTier, same.part.selected]

theorem Basis.keeps_budgetUnit (basis : Basis s t) (h : BudgetUnitOk s) : BudgetUnitOk t := by
  obtain ⟨budget, settle, differs⟩ := h
  cases basis with
  | aside same =>
    refine ⟨?_, ?_, ?_⟩
    · simp only [same.budget, same.settings, same.selected, budget]
    · rw [same.pendingTier, same.settleTimer, settle]
    · rwa [same.pendingTier, same.selected]
  | setting ranges tiers cap => exact ⟨budget.trans (by rw [tiers, cap]), settle, differs⟩
  | budget => exact ⟨rfl, settle, differs⟩
  | settle v => exact ⟨rfl, rfl, by simp [selectTier]⟩
  | lineChange v =>
    by_cases same : v = s.selected
    · rw [takeLineChange_selected same]
      exact ⟨budget, rfl, by simp⟩
    · rw [takeLineChange_other same]
      exact ⟨budget, rfl, fun e => same (Option.some.inj e)⟩
  | _ => exact ⟨budget, settle, differs⟩

theorem Move.keeps_budgetUnit (move : Move s t) (h : BudgetUnitOk s) : BudgetUnitOk t := by
  obtain ⟨u, basis, steady⟩ := move.basis
  exact (basis.keeps_budgetUnit h).steady steady

/-! ## The settings -/

theorem settingsOk_iff : SettingsOk s ↔ s.settings.Within ∧ ∀ n, ProfileOk (s.channel n).profile :=
  ⟨fun h => ⟨⟨h.tierBudget, h.budgetCap, h.reserve0, h.tierSettle, h.noticeTime, h.busyLimit⟩, h.profiles⟩,
    fun ⟨g, profiles⟩ => ⟨g.tierBudget, g.budgetCap, g.reserve0, g.tierSettle, g.noticeTime, g.busyLimit, profiles⟩⟩

/-- The settings stay within their ranges where neither they nor the profiles change. -/
theorem SettingsOk.congr (h : SettingsOk s) (settings : t.settings = s.settings)
    (profile : ∀ n, (t.channel n).profile = (s.channel n).profile) : SettingsOk t := by
  obtain ⟨within, profiles⟩ := settingsOk_iff.1 h
  exact settingsOk_iff.2 ⟨by rwa [settings], fun n => by rw [profile n]; exact profiles n⟩

/-- A key of a profile in its range leaves the profile within its ranges (Table 31). -/
theorem ProfileOk.put {z : Profile} (h : ProfileOk z) {k : ChannelKey} {v : Nat} (inRange : channelValueOk k v = true) :
    ProfileOk (z.put k v) := by
  cases k <;> simp only [channelValueOk, within_eq, decide_eq_true_eq] at inRange
  case enable => exact { h with }
  case ceiling => exact { h with ceiling := inRange }
  case startTime => exact { h with startTime := inRange }
  case discharge => exact { h with discharge := inRange.2 }
  case cooldown => exact { h with cooldown := inRange }
  case lockout => exact { h with lockout := inRange }
  case clean => exact { h with clean := inRange }

theorem Channel.enableWritten_profile (yes : Bool) (x : Channel) : (x.enableWritten yes).profile = x.profile := by
  unfold Channel.enableWritten
  split <;> rfl

theorem Channel.keyWritten_profile (k : ChannelKey) (v : Nat) (x : Channel) :
    (x.keyWritten k v).profile = x.profile.put k v := by
  unfold Channel.keyWritten
  dsimp only
  split
  · exact Channel.enableWritten_profile ..
  · rfl

theorem ChannelWrite.profile (write : ChannelWrite s n y) (h : ProfileOk (s.channel n).profile) : ProfileOk y.profile := by
  cases write with
  | level | clean | unlock => exact h
  | discharged => split <;> exact h
  | key k v inRange =>
    rw [Channel.keyWritten_profile]
    exact h.put inRange

theorem bulkClear_profile (s : State) (n : ChannelId) : ((bulkClear s).channel n).profile = (s.channel n).profile := by
  rw [bulkClear_channel]
  exact (ChannelKept.stop s.tick _).profile

theorem takeLineChange_settings (v : Tier) (s : State) : (takeLineChange v s).settings = s.settings := by
  by_cases same : v = s.selected
  · rw [takeLineChange_selected same]
  · rw [takeLineChange_other same]

theorem Basis.keeps_settings (basis : Basis s t) (h : SettingsOk s) : SettingsOk t := by
  obtain ⟨within, profiles⟩ := settingsOk_iff.1 h
  cases basis with
  | aside same => exact h.congr same.settings fun n => by rw [same.sameRecords.channel]
  | setting ranges | budget ranges => exact settingsOk_iff.2 ⟨ranges within, profiles⟩
  | safe | restart => exact h.congr rfl (bulkClear_profile s)
  | channel write =>
    refine settingsOk_iff.2 ⟨within, fun m => ?_⟩
    rw [State.channel_setChannel]
    split
    · exact write.profile (profiles _)
    · exact profiles m
  | lineChange v =>
    exact h.congr (takeLineChange_settings v s) fun n => by rw [(SameRecords.takeLineChange s v).channel]
  | _ => exact h.congr rfl fun _ => rfl

theorem Move.keeps_settings (move : Move s t) (h : SettingsOk s) : SettingsOk t := by
  obtain ⟨u, basis, steady⟩ := move.basis
  exact (basis.keeps_settings h).congr steady.part.settings steady.profile

/-! ## Client 0's session -/

theorem SupervisorOk.congr (h : SupervisorOk s) (mode : t.mode = s.mode)
    (rights : RightsKept (s.client 0) (t.client 0)) : SupervisorOk t := by
  refine ⟨by rw [rights.isOpen, h.session, mode], fun session => ?_⟩
  obtain ⟨quota, limit, best, attention⟩ := h.rights (rights.isOpen ▸ session)
  exact ⟨rights.quota.trans quota, rights.limit.trans limit, rights.best.trans best,
    rights.attention.trans attention⟩

/-- Outside RUN and HOLD client 0's entry is CLOSED. -/
theorem SupervisorOk.of_closed (idle : s.mode.serves = false) (closed : s.client 0 = Client.closed) : SupervisorOk s :=
  ⟨by rw [closed, idle]; rfl, fun session => by rw [closed] at session; cases session⟩

theorem takeLineChange_mode (v : Tier) (s : State) : (takeLineChange v s).mode = s.mode := by
  by_cases same : v = s.selected
  · rw [takeLineChange_selected same]
  · rw [takeLineChange_other same]

theorem Basis.keeps_supervisor (basis : Basis s t) (h : SupervisorOk s) : SupervisorOk t := by
  cases basis with
  | aside same =>
    refine h.congr same.mode ?_
    rw [same.sameRecords.client]
    exact .refl _
  | @session d o plain =>
    refine h.congr rfl ?_
    rw [State.client_setClient, if_neg plain.symm]
    exact .refl _
  | start =>
    have entry : (started s).client 0 = openSupervisor (s.client 0) := State.client_setClient_same _ 0 _
    exact ⟨by rw [entry]; rfl, fun _ => by rw [entry]; exact ⟨rfl, rfl, rfl, rfl⟩⟩
  | hold run => exact ⟨h.session.trans (by rw [run]; rfl), h.rights⟩
  | resume hold => exact ⟨h.session.trans (by rw [hold]; rfl), h.rights⟩
  | safe | restart => exact .of_closed rfl (bulkClear_client s 0)
  | lineChange v =>
    refine h.congr (takeLineChange_mode v s) ?_
    rw [(SameRecords.takeLineChange s v).client]
    exact .refl _
  | _ => exact h.congr rfl (.refl _)

theorem Move.keeps_supervisor (move : Move s t) (h : SupervisorOk s) : SupervisorOk t := by
  obtain ⟨u, basis, steady⟩ := move.basis
  exact (basis.keeps_supervisor h).congr steady.part.mode (steady.rights 0)

/-! ## The port units -/

theorem PortsOk.same (h : PortsOk s) (same : SamePorts s t) : PortsOk t := by
  unfold PortsOk
  rw [same.clientPort, same.managementPort]
  exact h

theorem takeLineChange_ports (v : Tier) (s : State) : SamePorts s (takeLineChange v s) := by
  by_cases same : v = s.selected
  · rw [takeLineChange_selected same]
    exact ⟨rfl, rfl, rfl⟩
  · rw [takeLineChange_other same]
    exact ⟨rfl, rfl, rfl⟩

theorem Basis.keeps_ports (basis : Basis s t) (h : PortsOk s) : PortsOk t := by
  cases basis with
  | aside same => exact same.ports h
  | lineChange v => exact h.same (takeLineChange_ports v s)
  | _ => exact h

theorem Move.keeps_ports (move : Move s t) (h : PortsOk s) : PortsOk t := by
  obtain ⟨u, basis, steady⟩ := move.basis
  exact (basis.keeps_ports h).same steady.ports

/-! ## The release of reset, and O9 -/

theorem BudgetUnitOk.atRelease (pins : Pins) (s : State) : BudgetUnitOk (Machine.atRelease pins s) := by
  have every : ∀ k : Tier,
      State.reset.budget = min State.reset.settings.tierBudget[k] State.reset.settings.budgetCap := by decide
  exact ⟨every pins.tier, rfl, nofun⟩

theorem Settings.within_reset : State.reset.settings.Within := by
  constructor <;> decide

theorem profileOk_reset : ProfileOk Profile.reset := by
  constructor <;> decide

theorem SettingsOk.atRelease (pins : Pins) (s : State) : SettingsOk (Machine.atRelease pins s) := by
  refine settingsOk_iff.2 ⟨Settings.within_reset, fun n => ?_⟩
  rw [State.channel_atRelease]
  exact profileOk_reset

theorem SupervisorOk.atRelease (pins : Pins) (s : State) : SupervisorOk (Machine.atRelease pins s) :=
  .of_closed rfl (State.client_atRelease ..)

theorem portsOk_reset : PortsOk State.reset := by
  constructor <;> constructor <;> decide

theorem PortsOk.atRelease (pins : Pins) (s : State) : PortsOk (Machine.atRelease pins s) := portsOk_reset

/-- Settles O9: `Basis` lists what a change can write of the budget unit, the settings, client 0's session and the
ports. -/
theorem budgetSettingsSessionAndPortsAreKept : Obligations.BudgetSettingsSessionAndPortsAreKept := by
  intro s t next
  refine ⟨fun h => ?_, fun h => ?_, fun h => ?_, fun h => ?_⟩
  · exact step_keeps (fun s l h => ⟨h.budget, h.settle, h.differs⟩) (fun s t move => move.keeps_budgetUnit)
      (fun s h => ⟨h.budget, h.settle, h.differs⟩) (fun pins s _ => .atRelease pins s) h next
  · exact step_keeps (fun s l h => h.congr rfl fun _ => rfl) (fun s t move => move.keeps_settings)
      (fun s h => h.congr rfl fun _ => rfl) (fun pins s _ => .atRelease pins s) h next
  · exact step_keeps (fun s l h => h.congr rfl (.refl _)) (fun s t move => move.keeps_supervisor)
      (fun s h => h.congr rfl (.refl _)) (fun pins s _ => .atRelease pins s) h next
  · exact step_keeps (fun _ _ h => h) (fun s t move => move.keeps_ports) (fun _ h => h)
      (fun pins s _ => .atRelease pins s) h next

end Sys2Proof.Machine
end

section
/-! PROOF. What the claims can do to one channel, said once: a property of channels that `LastingChannel` closes under these
changes holds after every change of the part where it held before. O10, the enable lines and the timer places, is the
first use. -/

namespace Sys2Proof.Machine

variable {s t u : State} {i j : SlotId} {r r' : Record} {c d : ClientId} {n m : ChannelId} {a : Ask} {x y : Channel}
variable {Q : ChannelId → Channel → Prop}

/-! ## What lasts -/

/-- Counts and levels are no part of it, and neither is the sampled event. -/
structure SameDrive (x y : Channel) : Prop where
  state   : y.state = x.state
  count   : y.faultCount = x.faultCount
  timer   : y.timer = x.timer
  profile : y.profile = x.profile
  en      : y.en = x.en

theorem OnlyCounts.sameDrive (h : OnlyCounts x y) : SameDrive x y := by
  rw [h]
  exact ⟨rfl, rfl, rfl, rfl, rfl⟩

/-- A property of a channel that lasts through every change that a claim can make to a channel from `s` on. -/
structure LastingChannel (s : State) (Q : ChannelId → Channel → Prop) : Prop where
  same : ∀ {n x y}, Q n x → SameDrive x y → Q n y
  stop : ∀ {n x}, Q n x → Q n (x.stop s.tick)
  start : ∀ {n x}, Q n x → x.state ≠ .disabled → Q n (x.beginStart s.tick)
  faulted : ∀ {n x} (cause : Cause), Q n x → x.state ≠ .disabled → Q n (x.faultedAt s.tick cause)
  cameUp : ∀ {n x}, Q n x → x.state = .starting →
    Q n (x.enter .on (some (.clean, s.tick + BitVec.ofNat 32 (x.profile.clean * 1000))))
  cooled : ∀ {n x}, Q n x → x.state = .faulted → Q n (x.enter .off none)
  written : ∀ {n y}, Q n (s.channel n) → ChannelWrite s n y → Q n y

/-- Each channel of `t` has the property, with the counter of `s`. -/
structure EachChannel (s : State) (Q : ChannelId → Channel → Prop) (t : State) : Prop where
  tick    : t.tick = s.tick
  channel : ∀ n, Q n (t.channel n)

theorem EachChannel.congr (h : EachChannel s Q t) (tick : u.tick = t.tick) (same : ∀ n, u.channel n = t.channel n) :
    EachChannel s Q u := ⟨tick.trans h.tick, fun n => by rw [same n]; exact h.channel n⟩

theorem EachChannel.setChannel (h : EachChannel s Q t) (ok : Q n x) : EachChannel s Q (t.setChannel n x) := by
  refine ⟨h.tick, fun m => ?_⟩
  rw [State.channel_setChannel]
  split
  · next e => exact e ▸ ok
  · exact h.channel m

theorem EachChannel.setClient (h : EachChannel s Q t) (d : ClientId) (o : Client) : EachChannel s Q (t.setClient d o) :=
  h.congr rfl fun _ => rfl

theorem EachChannel.setRecord (h : EachChannel s Q t) (i : SlotId) (r : Record) : EachChannel s Q (t.setRecord i r) :=
  h.congr rfl fun _ => rfl

theorem EachChannel.records (h : EachChannel s Q t) (same : SameRecords t u) (tick : u.tick = t.tick) :
    EachChannel s Q u := h.congr tick same.channel

theorem EachChannel.aside (h : EachChannel s Q t) (same : Aside t u) : EachChannel s Q u :=
  h.records same.sameRecords same.tick

theorem EachChannel.evaluate (h : EachChannel s Q t) : EachChannel s Q (Machine.evaluate t) :=
  h.congr (evaluate_handOff t).frame.part.tick (evaluate_keeps t).channel

theorem post_channel (i : SlotId) (kind : NoticeKind) (s : State) (n : ChannelId) :
    (post i kind s).channel n = s.channel n := (EvaluationKeeps.post i kind s).channel n

theorem markPowered_channel (i : SlotId) (r : Record) (s : State) (n : ChannelId) :
    (markPowered i r s).channel n = s.channel n := by
  unfold markPowered
  split
  · exact post_channel ..
  · rfl

theorem ChannelState.drives_enabled {st : ChannelState} (drives : st.drives = true) : st ≠ .disabled := by
  rintro rfl
  cases drives

section
variable (lasting : LastingChannel s Q)
include lasting

theorem EachChannel.drive (h : EachChannel s Q t) (tick : u.tick = t.tick)
    (same : ∀ n, SameDrive (t.channel n) (u.channel n)) : EachChannel s Q u :=
  ⟨tick.trans h.tick, fun n => lasting.same (h.channel n) (same n)⟩

theorem EachChannel.lastGrant (h : EachChannel s Q t) (r : Record) : EachChannel s Q (Machine.lastGrant r t) := by
  rw [lastGrant_eq]
  refine h.setChannel ?_
  split
  · rw [h.tick]
    exact lasting.stop (h.channel _)
  · exact h.channel _

theorem EachChannel.freeRecord (h : EachChannel s Q t) (i : SlotId) (r : Record) :
    EachChannel s Q (Machine.freeRecord i r t) :=
  h.drive lasting (Steady.freeRecord i r t).part.tick fun n => (detach_channel i r t n).sameDrive

theorem EachChannel.retireRecord (h : EachChannel s Q t) (i : SlotId) (r : Record) (reason : Reason) :
    EachChannel s Q (Machine.retireRecord i r reason t) :=
  h.drive lasting (Steady.retireRecord i r reason t).part.tick fun n => (retireRecord_channel i r reason t n).sameDrive

theorem LastingChannel.gain (ok : Q n x) (amount : Nat) : Q n (x.gain s.tick amount) := by
  have counted : Q n { x with sum := x.sum + amount, live := x.live + 1 } := lasting.same ok ⟨rfl, rfl, rfl, rfl, rfl⟩
  unfold Channel.gain Channel.firstGrant
  dsimp only
  split
  · split
    · next off => exact lasting.start counted (by simp [off])
    · exact counted
  · exact counted

theorem EachChannel.enterLive (h : EachChannel s Q t) (i : SlotId) (r : Record) :
    EachChannel s Q (Machine.enterLive i r t) := by
  refine ⟨h.tick, fun n => ?_⟩
  rw [enterLive_channel]
  split
  · rw [h.tick]
    exact lasting.gain (h.channel n) _
  · exact h.channel n

theorem EachChannel.changeAmount (h : EachChannel s Q t) (i : SlotId) (r : Record) (a : Nat) :
    EachChannel s Q (Machine.changeAmount i r a t) := by
  refine h.drive lasting rfl fun n => ?_
  rw [changeAmount_channel]
  split <;> exact ⟨rfl, rfl, rfl, rfl, rfl⟩

theorem EachChannel.walk (h : EachChannel s Q t) : EachChannel s Q (Machine.walk t) :=
  walk_keeps h fun i t taken ht => by
    obtain ⟨r, record, -⟩ := visit_take taken
    obtain ⟨kind, e⟩ := admitQueued_eq record
    rw [e]
    have unqueued : EachChannel s Q (unqueue i r t) := by
      refine ht.drive lasting rfl fun n => ?_
      rw [unqueue_channel]
      split <;> exact ⟨rfl, rfl, rfl, rfl, rfl⟩
    exact (unqueued.enterLive lasting i r).congr (Steady.post i kind _).part.tick (post_channel i kind _)

theorem EachChannel.handOn (h : EachChannel s Q t) (e w : Bool) : EachChannel s Q (Machine.handOn e w t) :=
  handOn_keepsAll e w h (fun _ ht => ht.evaluate) fun _ ht => ht.walk lasting

theorem EachChannel.rebudget (h : EachChannel s Q t) : EachChannel s Q (Machine.rebudget t) := by
  obtain ⟨-, e⟩ | ⟨-, e⟩ := rebudget_cases t <;> rw [e]
  · exact h
  · exact EachChannel.handOn lasting (t := { t with budget := budgetNow t }) (h.congr rfl fun _ => rfl) _ _

theorem EachChannel.acceptNotice (h : EachChannel s Q t) {k : Notice} (record : (t.slot i).record = some r)
    (noticed : r.notice? = some k) (a : Nat) : EachChannel s Q (Machine.acceptNotice i a t) := by
  obtain ⟨p, l, live⟩ := Record.phase_of_notice noticed
  rw [acceptNotice_eq record live]
  have ended : EachChannel s Q (noticeEnded i r p l k t) := h.congr rfl fun _ => rfl
  exact ((ended.setRecord i _).setClient _ _).changeAmount lasting ..

theorem EachChannel.deliver (h : EachChannel s Q t) (i : SlotId) (r : Record) : EachChannel s Q (Machine.deliver i r t) := by
  unfold Machine.deliver
  split
  · exact h.freeRecord lasting i r
  · exact (h.setRecord i _).setClient _ _

theorem EachChannel.comeUp (h : EachChannel s Q t) (n : ChannelId) : EachChannel s Q (Machine.comeUp n t) := by
  unfold Machine.comeUp
  dsimp only
  split
  · next starting =>
    refine EachChannel.aside ?_ (.nextOrder _)
    refine overRecords_keeps (P := EachChannel s Q) (h.setChannel ?_) fun i r t _ _ ht => ?_
    · rw [deadlineIn, h.tick]
      exact lasting.cameUp (h.channel n) starting
    · exact ht.congr (Steady.markPowered i r t).part.tick (markPowered_channel i r t)
  · exact h

/-- A fault before its hand-offs. -/
theorem EachChannel.faultRetired (h : EachChannel s Q t) (n : ChannelId) (cause : Cause)
    (ok : Q n ((t.channel n).faultedAt s.tick cause)) : EachChannel s Q (Machine.faultRetired n cause t) := by
  have written : EachChannel s Q (t.setChannel n ((t.channel n).faultedAt t.tick cause)) :=
    h.setChannel (by rw [h.tick]; exact ok)
  have entered : EachChannel s Q (faultEntered n cause t) := by
    obtain ⟨-, e⟩ | ⟨-, e⟩ := faultEntered_cases n cause t <;> rw [e]
    · exact (written.aside (.raise _ _)).aside (.raise _ _)
    · exact written.aside (.raise _ _)
  exact EachChannel.aside (overRecords_keeps (P := EachChannel s Q) entered
    fun i r t _ _ ht => ht.retireRecord lasting i r _) (.nextOrder _)

theorem EachChannel.fault (h : EachChannel s Q t) (n : ChannelId) (cause : Cause)
    (enabled : (t.channel n).state ≠ .disabled) : EachChannel s Q (Machine.fault n cause t) := by
  rw [fault_eq]
  exact (h.faultRetired lasting n cause (lasting.faulted cause (h.channel n) enabled)).handOn lasting _ _

theorem EachChannel.recordsFreed (h : EachChannel s Q t) (d : ClientId) : EachChannel s Q (Machine.recordsFreed d t) :=
  overRecords_keeps (P := EachChannel s Q) h fun i r _ _ _ ht => (ht.freeRecord lasting i r).lastGrant lasting r

theorem EachChannel.bulkClear (h : EachChannel s Q t) : EachChannel s Q (Machine.bulkClear t) := by
  refine ⟨h.tick, fun n => ?_⟩
  rw [bulkClear_channel, h.tick]
  exact lasting.same (lasting.stop (h.channel n)) ⟨rfl, rfl, rfl, rfl, rfl⟩

/-- What lasts through the changes of one channel, every change of the part keeps. -/
theorem Move.keeps_eachChannel (move : Move s t) (h : EachChannel s Q s) : EachChannel s Q t := by
  cases move with
  | aside same => exact h.aside same
  | @enter c a i can =>
    exact EachChannel.enterLive lasting (h.setClient c _ : EachChannel s Q (chargeClient c a.amount s)) _ _
  | queue can =>
    refine h.drive lasting rfl fun n => ?_
    rw [queueRequest_channel]
    split <;> exact ⟨rfl, rfl, rfl, rfl, rfl⟩
  | free record => exact ((h.freeRecord lasting _ _).lastGrant lasting _).handOn lasting _ _
  | retire reason record => exact ((h.retireRecord lasting _ _ _).lastGrant lasting _).handOn lasting _ _
  | shrink record => exact (h.changeAmount lasting _ _ _).handOn lasting _ _
  | grow record => exact (h.changeAmount lasting _ _ _).congr rfl fun _ => rfl
  | accept record noticed => exact (h.acceptNotice lasting record noticed _).handOn lasting _ _
  | renew | extend => exact h.setRecord ..
  | deliver => exact h.deliver lasting ..
  | openSession => exact h.setClient ..
  | closeSession => exact ((h.recordsFreed lasting _).setClient _ _).handOn lasting _ _
  | @setting g walks => exact EachChannel.handOn lasting (t := { s with settings := g }) (h.records (.setting s g) rfl) _ _
  | @budget g => exact EachChannel.rebudget lasting (t := { s with settings := g }) (h.records (.setting s g) rfl)
  | start => exact EachChannel.setClient (h.records (.mode s .run) rfl) _ _
  | hold => exact h.records (.mode s _) rfl
  | resume => exact EachChannel.walk lasting (h.records (.mode s _) rfl)
  | safe | restart => exact (h.bulkClear lasting).records (by constructor <;> rfl) rfl
  | channel write => exact h.setChannel (lasting.written (h.channel _) write)
  | cool faulted => exact (h.setChannel (lasting.cooled (h.channel _) faulted)).walk lasting
  | fault cause drives => exact h.fault lasting _ cause (ChannelState.drives_enabled drives)
  | comeUp => exact h.comeUp lasting _
  | settle => exact EachChannel.rebudget lasting (h.records (.selectTier s _) rfl)
  | lineChange v => exact h.records (.takeLineChange s v) (takeLineChange_clock v s).tick

end

/-! ## The enable lines and the timer places -/

/-- One channel as R106, R107 and R109 have it. -/
structure ChannelOk (x : Channel) : Prop where
  en      : x.en = decide (x.state = .starting ∨ x.state = .on)
  timer   : x.state.timerOk (x.timer.map Prod.fst)
  enabled : x.profile.enable = decide (x.state ≠ .disabled)
  count   : x.faultCount ≤ 7

theorem channelsOk_iff : ChannelsOk s ↔ ∀ n, ChannelOk (s.channel n) :=
  ⟨fun h n => ⟨h.en n, h.timer n, h.enabled n, h.count n⟩,
    fun h => ⟨fun n => (h n).en, fun n => (h n).timer, fun n => (h n).enabled, fun n => (h n).count⟩⟩

theorem ChannelOk.same (h : ChannelOk x) (same : SameDrive x y) : ChannelOk y := by
  refine ⟨?_, ?_, ?_, ?_⟩
  · rw [same.en, same.state, h.en]
  · rw [same.timer, same.state]
    exact h.timer
  · rw [same.profile, same.state, h.enabled]
  · rw [same.count]
    exact h.count

/-- Entering a state with the timer of that state, from one that is as DISABLED or as enabled as it. -/
theorem ChannelOk.enter (h : ChannelOk x) {st : ChannelState} {timer : Option (ChannelTimer × Tick)}
    (place : st.timerOk (timer.map Prod.fst)) (alike : st ≠ .disabled ↔ x.state ≠ .disabled) :
    ChannelOk (x.enter st timer) where
  en := rfl
  timer := place
  enabled := h.enabled.trans (decide_eq_decide.2 alike.symm)
  count := h.count

theorem ChannelOk.stop (h : ChannelOk x) (now : Tick) : ChannelOk (x.stop now) := by
  unfold Channel.stop
  split
  case h_3 => exact h
  all_goals
    split
    · exact h.enter rfl (by simp_all)
    · exact h.enter rfl (by simp_all)

theorem ChannelOk.beginStart (h : ChannelOk x) (now : Tick) (enabled : x.state ≠ .disabled) :
    ChannelOk (x.beginStart now) :=
  (h.enter (st := .starting) (timer := some (.start, now + BitVec.ofNat 32 x.profile.startTime)) rfl
    (by simp [enabled])).same ⟨rfl, rfl, rfl, rfl, rfl⟩

theorem ChannelOk.faultedAt (h : ChannelOk x) (now : Tick) (cause : Cause) (enabled : x.state ≠ .disabled) :
    ChannelOk (x.faultedAt now cause) := by
  have yes : x.profile.enable = true := by simp [h.enabled, enabled]
  have most : x.countedFault ≤ 7 := Nat.min_le_left ..
  unfold Channel.faultedAt
  cases x.locks
  · exact ⟨rfl, rfl, yes, most⟩
  · exact ⟨rfl, rfl, yes, most⟩

theorem ChannelOk.enableWritten {z : Channel} {yes : Bool} (h : ChannelOk z) (free : z.state = .disabled ∨
    z.state = .off ∨ z.state = .locked) :
    ChannelOk ({ z with profile := { z.profile with enable := yes } }.enableWritten yes) := by
  obtain ⟨en, timer, enabled, count⟩ := h
  obtain st | st | st := free <;> cases yes <;> rw [st] at en timer enabled
  all_goals
    simp only [Channel.enableWritten, st]
    refine ⟨?_, ?_, ?_, ?_⟩ <;> simp_all [Channel.enter, ChannelState.timerOk]

theorem ChannelWrite.channelOk (write : ChannelWrite s n y) (h : ChannelOk (s.channel n)) : ChannelOk y := by
  cases write with
  | level => exact h.same ⟨rfl, rfl, rfl, rfl, rfl⟩
  | discharged stopping =>
    split
    · exact h.enter rfl (by simp [stopping])
    · exact h.beginStart _ (by simp [stopping])
  | clean on =>
    obtain ⟨en, -, enabled, -⟩ := h
    refine ⟨en, ?_, enabled, Nat.zero_le _⟩
    simp [on, ChannelState.timerOk]
  | unlock locked =>
    refine ⟨rfl, rfl, ?_, Nat.zero_le _⟩
    exact h.enabled.trans (by simp [locked, Channel.unlocked])
  | key k v inRange empty =>
    unfold Channel.keyWritten
    dsimp only
    split
    · next e =>
      subst e
      exact h.enableWritten empty.state
    · next other =>
      obtain ⟨en, timer, enabled, count⟩ := h
      refine ⟨en, timer, ?_, count⟩
      rw [← enabled]
      cases k
      case enable => exact absurd rfl other
      all_goals rfl

theorem lasting_channelOk (s : State) : LastingChannel s fun _ => ChannelOk where
  same h same := h.same same
  stop h := h.stop _
  start h enabled := h.beginStart _ enabled
  faulted cause h enabled := h.faultedAt _ cause enabled
  cameUp h starting := h.enter (.inl rfl) (by simp [starting])
  cooled h faulted := h.enter rfl (by simp [faulted])
  written h write := write.channelOk h

theorem Move.keeps_channels (move : Move s t) (h : ChannelsOk s) : ChannelsOk t :=
  channelsOk_iff.2 (move.keeps_eachChannel (lasting_channelOk s) ⟨rfl, channelsOk_iff.1 h⟩).channel

theorem ChannelsOk.same (h : ChannelsOk s) (same : SameRecords s t) : ChannelsOk t :=
  channelsOk_iff.2 fun n => by rw [same.channel]; exact channelsOk_iff.1 h n

theorem ChannelsOk.atRelease (pins : Pins) (s : State) : ChannelsOk (Machine.atRelease pins s) := by
  refine channelsOk_iff.2 fun n => ?_
  rw [State.channel_atRelease]
  exact ⟨rfl, rfl, rfl, Nat.zero_le _⟩

/-- Settles O10: each change of the part keeps every channel as R106, R107 and R109 have it. -/
theorem channelsAreKept : Obligations.ChannelsAreKept := by
  intro s t h next
  exact step_keeps (P := ChannelsOk) (fun s l h => h.same (.pending s l)) (fun s t move h => move.keeps_channels h)
    (fun s h => h.same (.advance s)) (fun pins s _ => .atRelease pins s) h next

end Sys2Proof.Machine
end

section
/-! PROOF. What the claims can do to one record, said once: a property of records that `Lasting` closes under these changes
holds after every change of the part where it held before. The ranges of the records (Table 5) are the first use. -/

namespace Sys2Proof.Machine

/- One proof after another: side by side they need more memory than the check allows. -/
set_option Elab.async false

variable {s t u : State} {i j : SlotId} {r : Record} {c : ClientId} {n : ChannelId} {a : Ask} {Q : SlotId → Record → Prop}

/-! ## The ranges of a request -/

/-- The fields of a request within the ranges of Table 49. -/
structure AskOk (a : Ask) : Prop where
  amount  : 1 ≤ a.amount ∧ a.amount ≤ 2500
  floor   : ∀ f, a.floor = some f → 1 ≤ f ∧ f < a.amount
  length  : ∀ len, a.kind = .leased len → 100 ≤ len ∧ len ≤ 600000
  timeout : ∀ len, a.timeout = some len → 10 ≤ len ∧ len ≤ 60000

theorem AskOk.of_askOf {channel : Byte} {amount : Half} {cls flags : Byte} {lease : Quad} {floor timeout tag : Half}
    (e : askOf channel amount cls flags lease floor timeout tag = some a) : AskOk a := by
  unfold askOf at e
  dsimp only at e
  split at e
  · next inRange =>
    simp only [Bool.and_eq_true, Bool.or_eq_true, Bool.not_eq_true', within_eq, decide_eq_true_eq] at inRange
    obtain ⟨⟨⟨⟨⟨⟨-, amountOk⟩, -⟩, -⟩, leaseOk⟩, floorOk⟩, timeoutOk⟩ := inRange
    cases e
    refine ⟨amountOk, fun f hf => ?_, fun len hlen => ?_, fun len hlen => ?_⟩
    · dsimp only at hf ⊢
      split at hf <;> simp_all
      omega
    · dsimp only at hlen
      split at hlen <;> simp_all
    · dsimp only at hlen
      split at hlen <;> simp_all
  · cases e

/-! ## What lasts -/

/-- The lease deadline of a record admitted when the counter reads `now` (R33). -/
def Kind.leaseAt (now : Tick) : Kind → Option Tick
  | .leased len => some (now + BitVec.ofNat 32 len)
  | .standing => none

theorem leaseFrom_eq (k : Kind) (s : State) : leaseFrom k s = k.leaseAt s.tick := by cases k <;> rfl

/-- A property of the record of a slot that lasts through every change that a claim can make to a record from `s` on,
and that every record which a request of `s` makes has. -/
structure Lasting (s : State) (Q : SlotId → Record → Prop) : Prop where
  ok : ∀ {i r}, Q i r → RecordOk r
  kinds : ∀ {i r} (k : KindSet), Q i r → Q i { r with kinds := k }
  powered : ∀ {i r p l x} (p' : Bool), Q i r → r.phase = .live p l x → Q i { r with phase := .live p' l x }
  retired : ∀ {i r} (reason : Reason), Q i r → Q i { r with phase := .retired reason }
  entered : ∀ {i r} (p : Bool), Q i r → Q i { r with phase := .live p (r.kind.leaseAt s.tick) none }
  ended : ∀ {i r p l x}, Q i r → r.phase = .live p l x → Q i { r with phase := .live p l none }
  noticed : ∀ {i r p l} {q len : Nat}, Q i r → r.phase = .live p l none → q < r.amount → 5 ≤ len → len ≤ 5000 →
    Q i { r with phase := .live p l (some { required := q, deadline := s.tick + BitVec.ofNat 32 len, busy := 0 }) }
  reamounted : ∀ {i r p l} {a : Nat}, Q i r → r.phase = .live p l none → 1 ≤ a → a ≤ 2500 → Q i (r.reamounted a)
  renewed : ∀ {i r p l x len}, Q i r → r.phase = .live p l x → r.kind = .leased len →
    Q i { r with phase := .live p (some (s.tick + BitVec.ofNat 32 len)) x }
  extended : ∀ {i r p l n} {len : Nat}, Q i r → r.phase = .live p l (some n) → n.busy < 3 → 5 ≤ len → len ≤ 5000 →
    Q i { r with phase := .live p l (some { n with busy := n.busy + 1, deadline := s.tick + BitVec.ofNat 32 len }) }
  admitted : ∀ {i c a} (p : Bool), CanRequest c a i s → AskOk a →
    Q i (recordOf c a (.live p (a.kind.leaseAt s.tick) none))
  queued : ∀ {i c a}, CanRequest c a i s → AskOk a → Q i (recordOf c a (.queued (a.waitsUntil s)))

/-- Each record of `t` has the property, with the counter of `s` and the settings within their ranges. -/
structure Each (s : State) (Q : SlotId → Record → Prop) (t : State) : Prop where
  tick   : t.tick = s.tick
  within : t.settings.Within
  record : ∀ i r, (t.slot i).record = some r → Q i r

theorem Each.congr (h : Each s Q t) (tick : u.tick = t.tick) (settings : u.settings = t.settings)
    (same : ∀ j, (u.slot j).record = (t.slot j).record) : Each s Q u :=
  ⟨tick.trans h.tick, settings ▸ h.within, fun i r record => h.record i r ((same i).symm.trans record)⟩

/-- One slot is written: its record, if any, must have the property. -/
theorem Each.write (h : Each s Q t) (i : SlotId) (same : Steady t u)
    (others : ∀ j, j ≠ i → (u.slot j).record = (t.slot j).record) (own : ∀ r, (u.slot i).record = some r → Q i r) :
    Each s Q u := by
  refine ⟨same.part.tick.trans h.tick, same.part.settings ▸ h.within, fun j r record => ?_⟩
  by_cases other : j = i
  · subst other
    exact own r record
  · exact h.record j r ((others j other).symm.trans record)

theorem Each.setRecord (h : Each s Q t) (ok : Q i r) : Each s Q (t.setRecord i r) := by
  refine h.write i (.setRecord i r t) (fun j other => by rw [State.slot_setRecord_other t r other]) fun q record => ?_
  rw [State.slot_setRecord_same] at record
  cases record
  exact ok

theorem Each.same (h : Each s Q t) (same : SameRecords t u) (tick : u.tick = t.tick) (settings : u.settings = t.settings) :
    Each s Q u := h.congr tick settings fun j => by rw [same.slot]

theorem Each.aside (h : Each s Q t) (same : Aside t u) : Each s Q u := h.same same.sameRecords same.tick same.settings

section
variable (lasting : Lasting s Q)
include lasting

theorem Each.setKinds (h : Each s Q t) (ok : Q i r) (k : KindSet) : Each s Q (Machine.setKinds i r k t) :=
  (h.setRecord (lasting.kinds k ok)).congr rfl rfl fun _ => rfl

theorem Each.post (h : Each s Q t) (i : SlotId) (kind : NoticeKind) : Each s Q (Machine.post i kind t) := by
  unfold Machine.post
  split
  · next r record => exact h.setKinds lasting (h.record i r record) _
  · exact h

omit lasting in
theorem Each.freeRecord (h : Each s Q t) (i : SlotId) (r : Record) : Each s Q (Machine.freeRecord i r t) := by
  refine h.write i (.freeRecord i r t) (fun j other => by rw [freeRecord_slot, if_neg other]) fun q record => ?_
  rw [freeRecord_slot, if_pos rfl] at record
  cases record

omit lasting in
theorem Each.lastGrant (h : Each s Q t) (r : Record) : Each s Q (Machine.lastGrant r t) := by
  have same := (lastGrant_handOff r t).steady
  exact h.congr same.part.tick same.part.settings fun j => by rw [lastGrant_slot]

theorem Each.retireRecord (h : Each s Q t) (record : (t.slot i).record = some r) (reason : Reason) :
    Each s Q (Machine.retireRecord i r reason t) := by
  refine h.write i (.retireRecord i r reason t) (fun j other => by rw [retireRecord_slot_other r reason t other])
    fun q now => ?_
  rw [retireRecord_slot_same] at now
  cases now
  exact lasting.kinds _ (lasting.retired reason (h.record i r record))

omit lasting in
theorem Steady.unqueue (i : SlotId) (r : Record) (s : State) : Steady s (Machine.unqueue i r s) := by
  refine ⟨by constructor <;> rfl, ⟨rfl, rfl, rfl⟩, fun n => ?_, fun _ => .refl _⟩
  rw [unqueue_channel]
  split <;> rfl

theorem Each.admitQueued (h : Each s Q t) (record : (t.slot i).record = some r) :
    Each s Q (Machine.admitQueued i t) := by
  obtain ⟨kind, e⟩ := admitQueued_eq record
  have unqueued := Steady.unqueue i r t
  rw [e]
  refine Each.post lasting (h.write i (unqueued.trans (.enterLive ..)) (fun j other => ?_) fun q now => ?_) i kind
  · rw [enterLive_slot_eq, if_neg other]
    rfl
  · rw [enterLive_slot_eq, if_pos rfl] at now
    cases now
    rw [Record.entering, leaseFrom_eq, unqueued.part.tick, h.tick]
    exact lasting.entered _ (h.record i r record)

theorem Each.walk (h : Each s Q t) : Each s Q (Machine.walk t) :=
  walk_keeps h fun i t taken ht => by
    obtain ⟨r, record, -⟩ := visit_take taken
    exact ht.admitQueued lasting record

theorem Each.noticeEnded (h : Each s Q t) (record : (t.slot i).record = some r) {p : Bool} {l : Option Tick} {n : Notice}
    (live : r.phase = .live p l (some n)) : Each s Q (Machine.noticeEnded i r p l n t) :=
  (h.setRecord (lasting.ended (h.record i r record) live)).congr rfl rfl fun _ => rfl

theorem Each.withdrawNotice (h : Each s Q t) (record : (t.slot i).record = some r) (noticed : r.notice?.isSome = true) :
    Each s Q (Machine.withdrawNotice i t) := by
  obtain ⟨n, hn⟩ := Option.isSome_iff_exists.1 noticed
  obtain ⟨p, l, live⟩ := Record.phase_of_notice hn
  rw [Machine.withdrawNotice, endNotice_noticed record live]
  exact (h.noticeEnded lasting record live).post lasting i _

theorem Each.postReduce (h : Each s Q t) (record : (t.slot i).record = some r) {q : Nat} (below : q < r.amount) :
    Each s Q (Machine.postReduce i q t) := by
  obtain e | ⟨r', p, l, record', active, e⟩ := postReduce_cases i q t
  · rwa [e]
  · cases record.symm.trans record'
    rw [e]
    have given : Q i { r with phase := .live p l (some (freshNotice q t)) } := by
      rw [freshNotice, h.tick]
      exact lasting.noticed (h.record i r record) active below h.within.noticeTime.1 h.within.noticeTime.2
    have set : Each s Q (setNotice i r p l q t) := (h.setRecord given).congr rfl rfl fun _ => rfl
    exact set.post lasting i _

omit lasting in
/-- A need above 0 asks for less than the amount (R83). -/
theorem requiredOf_lt {need : Nat} (some_need : 0 < need) (positive : 1 ≤ r.amount) : requiredOf r need < r.amount := by
  unfold requiredOf
  split
  · split <;> omega
  · omega

omit lasting in
/-- What the postings of an evaluation keep, each made to a record where projected exceeds the budget (R83). -/
theorem chooseVictims_keepsWhere {P : State → Prop} {l : List SlotId} (ht : P t)
    (step : ∀ i r t, (t.slot i).record = some r → t.budget < projected t → P t →
      P (postReduce i (requiredOf r (projected t - t.budget)) t)) : P (chooseVictims l t) := by
  induction l generalizing t with
  | nil => exact ht
  | cons i rest ih =>
    unfold chooseVictims
    split
    · exact ht
    · next above =>
      split
      · next r record => exact ih (step i r t record (not_le.1 above) ht)
      · exact ih ht

theorem Each.weigh (h : Each s Q t) : Each s Q (Machine.weigh t) := by
  unfold Machine.weigh
  split
  · refine chooseVictims_keepsWhere h fun i r t record above ht => ht.postReduce lasting record ?_
    exact requiredOf_lt (Nat.sub_pos_of_lt above) (lasting.ok (ht.record i r record)).amount.1
  · exact withdrawFrom_keeps h fun i r t record noticed ht => ht.withdrawNotice lasting record noticed

theorem Each.evaluate (h : Each s Q t) : Each s Q (Machine.evaluate t) := by
  rw [evaluate_eq_weigh]
  exact (h.weigh lasting).congr rfl rfl fun _ => rfl

theorem Each.handOn (h : Each s Q t) (e w : Bool) : Each s Q (Machine.handOn e w t) :=
  handOn_keepsAll e w h (fun _ ht => ht.evaluate lasting) fun _ ht => ht.walk lasting

theorem Each.rebudget (h : Each s Q t) : Each s Q (Machine.rebudget t) := by
  obtain ⟨-, e⟩ | ⟨-, e⟩ := rebudget_cases t <;> rw [e]
  · exact h
  · exact Each.handOn lasting (t := { t with budget := budgetNow t }) (h.congr rfl rfl fun _ => rfl) _ _

omit lasting in
theorem Each.freeReporting (h : Each s Q t) (i : SlotId) (r : Record) : Each s Q (Machine.freeReporting i r t) :=
  (h.freeRecord i r).lastGrant r

theorem Each.retireReporting (h : Each s Q t) (record : (t.slot i).record = some r) (reason : Reason) :
    Each s Q (Machine.retireReporting reason i r t) := (h.retireRecord lasting record reason).lastGrant r

theorem Each.changeAmount (h : Each s Q t) (own : Q i r) {p : Bool} {l : Option Tick} (active : r.phase = .live p l none)
    {a : Nat} (positive : 1 ≤ a) (most : a ≤ 2500) : Each s Q (Machine.changeAmount i r a t) := by
  refine h.write i (.changeAmount i r a t) (fun j other => by rw [changeAmount_slot, if_neg other]) fun q now => ?_
  rw [changeAmount_slot, if_pos rfl] at now
  cases now
  exact lasting.reamounted own active positive most

theorem Each.acceptNotice (h : Each s Q t) {n : Notice} (record : (t.slot i).record = some r)
    (noticed : r.notice? = some n) (positive : n.required ≠ 0) : Each s Q (Machine.acceptNotice i n.required t) := by
  obtain ⟨p, l, live⟩ := Record.phase_of_notice noticed
  have own := h.record i r record
  obtain ⟨below, -⟩ := (lasting.ok own).notice n noticed
  have most := (lasting.ok own).amount.2
  have ended := lasting.ended own live
  rw [acceptNotice_eq record live]
  exact ((h.noticeEnded lasting record live).setKinds lasting ended _).changeAmount lasting (lasting.kinds _ ended) rfl
    (by omega) (by omega)

theorem Each.deliver (h : Each s Q t) (record : (t.slot i).record = some r) : Each s Q (Machine.deliver i r t) := by
  unfold Machine.deliver
  split
  · exact h.freeRecord i r
  · exact h.setKinds lasting (h.record i r record) _

theorem Each.markPowered (h : Each s Q t) (record : (t.slot i).record = some r) :
    Each s Q (Machine.markPowered i r t) := by
  unfold Machine.markPowered
  split
  · next live => exact (h.setRecord (lasting.powered true (h.record i r record) live)).post lasting i _
  · exact h

theorem Each.comeUp (h : Each s Q t) (n : ChannelId) : Each s Q (Machine.comeUp n t) := by
  unfold Machine.comeUp
  dsimp only
  split
  · refine Each.aside ?_ (.nextOrder _)
    exact overRecords_keeps (P := Each s Q) (h.congr rfl rfl fun _ => rfl)
      fun i r t _ record ht => ht.markPowered lasting record
  · exact h

theorem Each.fault (h : Each s Q t) (n : ChannelId) (cause : Cause) : Each s Q (Machine.fault n cause t) := by
  have written : Each s Q (t.setChannel n ((t.channel n).faultedAt t.tick cause)) := h.congr rfl rfl fun _ => rfl
  have entered : Each s Q (faultEntered n cause t) := by
    obtain ⟨-, e⟩ | ⟨-, e⟩ := faultEntered_cases n cause t <;> rw [e]
    · exact (written.aside (.raise _ _)).aside (.raise _ _)
    · exact written.aside (.raise _ _)
  have retired : Each s Q (faultRetired n cause t) :=
    Each.aside (overRecords_keeps (P := Each s Q) entered fun i r t _ record ht => ht.retireRecord lasting record _)
      (.nextOrder _)
  rw [fault_eq]
  exact retired.handOn lasting _ _

omit lasting in
theorem Each.recordsFreed (h : Each s Q t) (d : ClientId) : Each s Q (Machine.recordsFreed d t) :=
  overRecords_keeps (P := Each s Q) h fun i r _ _ _ ht => ht.freeReporting i r

omit lasting in
theorem Each.bulkClear (h : Each s Q t) : Each s Q (Machine.bulkClear t) :=
  ⟨h.tick, h.within, fun i r record => by rw [bulkClear_slot, Slot.cleared_record] at record; cases record⟩

omit lasting in
theorem Each.takeLineChange (h : Each s Q t) (v : Tier) : Each s Q (Machine.takeLineChange v t) :=
  h.same (.takeLineChange t v) (takeLineChange_clock v t).tick (takeLineChange_settings v t)

omit lasting in
theorem CanRequest.ok (can : CanRequest c a i s) : AskOk a := by
  obtain ⟨_, _, _, _, _, _, _, _, e⟩ := can.asks
  exact .of_askOf e

theorem Each.admitRequest (h : Each s Q s) (can : CanRequest c a i s) : Each s Q (Machine.admitRequest i c a s) := by
  refine h.write i (.admitRequest i c a s) (fun j other => ?_) fun q now => ?_
  · rw [Machine.admitRequest, enterLive_slot_eq, if_neg other]
    rfl
  · rw [Machine.admitRequest, enterLive_slot_eq, if_pos rfl] at now
    cases now
    rw [Record.entering, leaseFrom_eq]
    exact lasting.admitted _ can can.ok

theorem Each.queueRequest (h : Each s Q s) (can : CanRequest c a i s) : Each s Q (Machine.queueRequest i c a s) := by
  refine h.write i (.queueRequest i c a s) (fun j other => by rw [queueRequest_slot, if_neg other]) fun q now => ?_
  rw [queueRequest_slot, if_pos rfl] at now
  cases now
  exact lasting.queued can can.ok

/-- What lasts through the changes of one record, every change of the part keeps. -/
theorem Move.keeps_each (move : Move s t) (h : Each s Q s) : Each s Q t := by
  cases move with
  | aside same => exact h.aside same
  | enter can => exact h.admitRequest lasting can
  | queue can => exact h.queueRequest lasting can
  | free record => exact (h.freeReporting _ _).handOn lasting _ _
  | retire reason record => exact (h.retireReporting lasting record reason).handOn lasting _ _
  | shrink record active positive lower =>
    obtain ⟨p, l, live⟩ := Record.phase_of_active active
    have own := h.record _ _ record
    exact (h.changeAmount lasting own live positive (lower.le.trans (lasting.ok own).amount.2)).handOn lasting _ _
  | grow record active higher most =>
    obtain ⟨p, l, live⟩ := Record.phase_of_active active
    have own := h.record _ _ record
    exact (h.changeAmount lasting own live ((lasting.ok own).amount.1.trans higher.le) most).congr rfl rfl fun _ => rfl
  | accept record noticed positive => exact (h.acceptNotice lasting record noticed positive).handOn lasting _ _
  | renew record live leased => exact h.setRecord (lasting.renewed (h.record _ _ record) live leased)
  | extend record live below =>
    exact h.setRecord (lasting.extended (h.record _ _ record) live (below.trans_le h.within.busyLimit)
      h.within.noticeTime.1 h.within.noticeTime.2)
  | deliver head record => exact h.deliver lasting record
  | openSession => exact h.congr rfl rfl fun _ => rfl
  | @closeSession d =>
    have freed := h.recordsFreed d
    exact Each.handOn lasting (t := (recordsFreed d s).setClient d Client.closed) (freed.congr rfl rfl fun _ => rfl) _ _
  | @setting g walks ranges =>
    exact Each.handOn lasting (t := { s with settings := g }) ⟨h.tick, ranges h.within, h.record⟩ _ _
  | @budget g ranges => exact Each.rebudget lasting (t := { s with settings := g }) ⟨h.tick, ranges h.within, h.record⟩
  | start | hold => exact h.congr rfl rfl fun _ => rfl
  | resume => exact Each.walk lasting (t := resumed s) (h.congr rfl rfl fun _ => rfl)
  | safe | restart => exact h.bulkClear.congr rfl rfl fun _ => rfl
  | channel write => exact h.congr rfl rfl fun _ => rfl
  | @cool n => exact Each.walk lasting (t := cooledDown n s) (h.congr rfl rfl fun _ => rfl)
  | fault cause => exact h.fault lasting _ cause
  | comeUp => exact h.comeUp lasting _
  | settle => exact Each.rebudget lasting (t := selectTier _ s) (h.same (.selectTier s _) rfl rfl)
  | lineChange v => exact h.takeLineChange v

end

/-! ## The ranges of the records -/

theorem Kind.leaseAt_ok (k : Kind) (now : Tick) {p : Bool} {x : Option Notice}
    (live : r.phase = .live p (k.leaseAt now) x) (kind : r.kind = k) : r.leaseOk := by
  cases k <;> simp [Record.leaseOk, live, kind, Kind.leaseAt]

theorem recordOk_recordOf (ok : AskOk a) {f : Phase} (lease : (recordOf c a f).leaseOk)
    (quiet : (recordOf c a f).notice? = none) : RecordOk (recordOf c a f) :=
  ⟨ok.amount, ok.floor, ok.length, lease, fun n e => by rw [quiet] at e; cases e⟩

/-- Whether the lease place of a live record is as R7 and R33 have it depends on its kind and its lease deadline. -/
theorem Record.leaseOk_live {p p' : Bool} {l : Option Tick} {x y : Option Notice} (live : r.phase = .live p l x)
    (h : r.leaseOk) : ({ r with phase := .live p' l y } : Record).leaseOk := by
  unfold Record.leaseOk at h ⊢
  rw [live] at h
  cases e : r.kind <;> simpa [e] using h

theorem Record.notice?_live {p : Bool} {l : Option Tick} {x : Option Notice} (live : r.phase = .live p l x) :
    r.notice? = x := by
  rw [Record.notice?, live]

theorem lasting_recordOk (s : State) : Lasting s fun _ => RecordOk where
  ok h := h
  kinds _ h := { h with }
  powered _ h live := { h with
    lease := Record.leaseOk_live live h.lease
    notice := fun n e => h.notice n ((Record.notice?_live live).trans e) }
  retired _ h := { h with lease := trivial, notice := nofun }
  entered _ h := { h with lease := Kind.leaseAt_ok _ _ rfl rfl, notice := nofun }
  ended h live := { h with lease := Record.leaseOk_live live h.lease, notice := nofun }
  noticed h live below _ _ := { h with
    lease := Record.leaseOk_live live h.lease
    notice := by
      rintro n ⟨⟩
      exact ⟨below, Nat.zero_le _⟩ }
  reamounted h active positive most :=
    { amount := ⟨positive, most⟩
      floor := fun f kept => by
        obtain ⟨before, below⟩ := Option.filter_eq_some_iff.1 kept
        exact ⟨(h.floor f before).1, of_decide_eq_true below⟩
      length := h.length
      lease := h.lease
      notice := fun n noticed => by simp [Record.notice?, Record.reamounted, active] at noticed }
  renewed h live leased := { h with
    lease := by simp [Record.leaseOk, leased]
    notice := fun n e => h.notice n ((Record.notice?_live live).trans e) }
  extended h live below _ _ := { h with
    lease := Record.leaseOk_live live h.lease
    notice := by
      rintro m ⟨⟩
      exact ⟨(h.notice _ (Record.notice?_live live)).1, below⟩ }
  admitted _ _ ok := recordOk_recordOf ok (Kind.leaseAt_ok _ _ rfl rfl) rfl
  queued _ ok := recordOk_recordOf ok trivial rfl

/-- Every record lies within the ranges of Table 5. -/
def RecordsOk (s : State) : Prop := ∀ i r, (s.slot i).record = some r → RecordOk r

theorem Move.keeps_records (move : Move s t) (settings : SettingsOk s) (h : RecordsOk s) : RecordsOk t :=
  (move.keeps_each (lasting_recordOk s) ⟨rfl, (settingsOk_iff.1 settings).1, h⟩).record

end Sys2Proof.Machine
end

section
/-! PROOF. What ties the channels to their grants (R8, R16, R106, R125) stays through every change of the part. -/

namespace Sys2Proof.Machine

/- One proof after another: side by side they need more memory than the check allows. -/
set_option Elab.async false

variable {s t u : State} {i j : SlotId} {r r' : Record} {c : ClientId} {n m : ChannelId} {a : Ask} {x y : Channel}

/-! ## The channel half and the record half -/

/-- A channel with the grants that its state allows, within its ceiling. -/
structure GrantChannel (x : Channel) : Prop where
  driven  : x.state.drives = true → 0 < x.live
  empty   : x.state = .off ∨ x.state = .disabled ∨ x.state = .faulted ∨ x.state = .locked → x.live = 0
  refused : x.state = .disabled ∨ x.state = .locked → x.queued = 0
  ceiling : x.sum ≤ x.profile.ceiling

/-- A live grant is powered exactly while its channel is ON (R8). -/
def PoweredOk (s : State) : Prop :=
  ∀ i r, (s.slot i).record = some r → r.isLive = true → r.powered = decide ((s.channel r.channel).state = .on)

theorem grantsOk_iff : GrantsOk s ↔ (∀ n, GrantChannel (s.channel n)) ∧ PoweredOk s :=
  ⟨fun h => ⟨fun n => ⟨h.driven n, h.empty n, h.refused n, h.ceiling n⟩, h.powered⟩,
    fun ⟨h, powered⟩ => ⟨fun n => (h n).driven, fun n => (h n).empty, fun n => (h n).refused, fun n => (h n).ceiling,
      powered⟩⟩

/-- The record `r` becomes `r'` as far as its channel, its power and its class go. -/
structure SamePower (r r' : Record) : Prop where
  live    : r.isLive = true
  channel : r'.channel = r.channel
  powered : r'.powered = r.powered
  cls     : r'.cls = r.cls

theorem SamePower.of_live {p : Bool} {l : Option Tick} {x : Option Notice} (live : r.phase = .live p l x)
    (channel : r'.channel = r.channel) {l' : Option Tick} {x' : Option Notice}
    (live' : r'.phase = .live p l' x' := by rfl) (cls : r'.cls = r.cls := by rfl) : SamePower r r' :=
  ⟨by rw [Record.isLive, live], channel, by rw [Record.powered, Record.powered, live, live'], cls⟩

/-- Every live record of `t` was live in `s`, on the same channel and as powered as now. -/
def LiveFrom (s t : State) : Prop :=
  ∀ i r', (t.slot i).record = some r' → r'.isLive = true → ∃ r, (s.slot i).record = some r ∧ SamePower r r'

theorem LiveFrom.refl (s : State) : LiveFrom s s := fun _ r record live => ⟨r, record, live, rfl, rfl, rfl⟩

theorem LiveFrom.trans (a : LiveFrom s t) (b : LiveFrom t u) : LiveFrom s u := by
  intro i r' record live
  obtain ⟨r, record, mid⟩ := b i r' record live
  obtain ⟨q, record, first⟩ := a i r record mid.live
  exact ⟨q, record, first.live, mid.channel.trans first.channel, mid.powered.trans first.powered,
    mid.cls.trans first.cls⟩

theorem LiveFrom.of_same (same : ∀ j, (t.slot j).record = (s.slot j).record) : LiveFrom s t :=
  fun i r record live => ⟨r, (same i).symm.trans record, live, rfl, rfl, rfl⟩

theorem LiveFrom.write (i : SlotId) (others : ∀ j, j ≠ i → (t.slot j).record = (s.slot j).record)
    (own : ∀ r', (t.slot i).record = some r' → r'.isLive = true → ∃ r, (s.slot i).record = some r ∧ SamePower r r') :
    LiveFrom s t := by
  intro j r' record live
  by_cases other : j = i
  · subst other
    exact own r' record live
  · exact ⟨r', (others j other).symm.trans record, live, rfl, rfl, rfl⟩

theorem LiveFrom.setRecord (record : (s.slot i).record = some r) (same : r'.isLive = true → SamePower r r') :
    LiveFrom s (s.setRecord i r') := by
  refine .write i (fun j other => by rw [State.slot_setRecord_other s r' other]) fun q now live => ?_
  rw [State.slot_setRecord_same] at now
  cases now
  exact ⟨r, record, same live⟩

theorem LiveFrom.setKinds (record : (s.slot i).record = some r) (k : KindSet) :
    LiveFrom s (Machine.setKinds i r k s) :=
  (LiveFrom.setRecord (r' := { r with kinds := k }) record fun live => ⟨live, rfl, rfl, rfl⟩).trans (.of_same fun _ => rfl)

theorem LiveFrom.post (i : SlotId) (kind : NoticeKind) (s : State) : LiveFrom s (Machine.post i kind s) := by
  unfold Machine.post
  split
  · next record => exact .setKinds record _
  · exact .refl s

theorem LiveFrom.freeRecord (i : SlotId) (r : Record) (s : State) : LiveFrom s (Machine.freeRecord i r s) := by
  refine .write i (fun j other => by rw [freeRecord_slot, if_neg other]) fun q now => ?_
  rw [freeRecord_slot, if_pos rfl] at now
  cases now

theorem LiveFrom.retireRecord (i : SlotId) (r : Record) (reason : Reason) (s : State) :
    LiveFrom s (Machine.retireRecord i r reason s) := by
  refine .write i (fun j other => by rw [retireRecord_slot_other r reason s other]) fun q now live => ?_
  rw [retireRecord_slot_same] at now
  cases now
  cases live

theorem PoweredOk.congr (h : PoweredOk s) (from_s : LiveFrom s t)
    (on : ∀ i r, (t.slot i).record = some r → r.isLive = true →
      ((t.channel r.channel).state = .on ↔ (s.channel r.channel).state = .on)) : PoweredOk t := by
  intro i r' record live
  obtain ⟨r, before, same⟩ := from_s i r' record live
  rw [same.powered, h i r before same.live, ← same.channel]
  exact (decide_eq_decide.2 (on i r' record live)).symm

/-- Where the channels keep their states, sums and counts. -/
theorem GrantsOk.congr (h : GrantsOk s) (from_s : LiveFrom s t) (channel : ∀ n, t.channel n = s.channel n) :
    GrantsOk t := by
  obtain ⟨channels, powered⟩ := grantsOk_iff.1 h
  exact grantsOk_iff.2 ⟨fun n => by rw [channel n]; exact channels n,
    powered.congr from_s fun _ _ _ _ => by rw [channel]⟩

theorem GrantsOk.same (h : GrantsOk s) (same : SameRecords s t) : GrantsOk t :=
  h.congr (.of_same fun j => by rw [same.slot]) same.channel

theorem GrantsOk.setClient (h : GrantsOk s) (d : ClientId) (o : Client) : GrantsOk (s.setClient d o) :=
  h.congr (.of_same fun _ => rfl) fun _ => rfl

/-- One channel is written, and it is ON no more and no less than it was. -/
theorem GrantsOk.setChannel (h : GrantsOk s) (ok : GrantChannel y) (on : y.state = .on ↔ (s.channel n).state = .on) :
    GrantsOk (s.setChannel n y) := by
  obtain ⟨channels, powered⟩ := grantsOk_iff.1 h
  refine grantsOk_iff.2 ⟨fun m => ?_, powered.congr (.of_same fun _ => rfl) fun i r _ _ => ?_⟩
  · rw [State.channel_setChannel]
    split
    · exact ok
    · exact channels m
  · rw [State.channel_setChannel]
    split
    · next e => rw [on, e]
    · rfl

/-! ## What exact sums say of a channel's records -/

/-- Exact sums move with the shares of the records. -/
theorem SumsExact.figure_eq (hs : SumsExact s) (ht : SumsExact t) {g : Figure}
    (shares : ∀ j, g.share (t.slot j).record = g.share (s.slot j).record) : g.of t = g.of s := by
  rw [sumsExact_iff.1 hs g, sumsExact_iff.1 ht g, sumOver_eq, sumOver_eq]
  exact Finset.sum_congr rfl fun j _ => shares j

theorem SumsExact.figure_zero (h : SumsExact s) {g : Figure}
    (none : ∀ j r, (s.slot j).record = some r → g.weight r = 0) : g.of s = 0 := by
  rw [sumsExact_iff.1 h g]
  exact sumOver_eq_zero none

theorem SumsExact.live_pos (h : SumsExact s) (record : (s.slot i).record = some r) (live : r.isLive = true) :
    0 < (s.channel r.channel).live := by
  have := h.weight_le record (.live r.channel)
  simp only [Figure.of, Figure.weight, only, live, decide_true, Bool.and_self, if_true] at this
  exact this

theorem SumsExact.queued_pos (h : SumsExact s) (record : (s.slot i).record = some r) (queued : r.isQueued = true) :
    0 < (s.channel r.channel).queued := by
  have := h.weight_le record (.queued r.channel)
  simp only [Figure.of, Figure.weight, only, queued, decide_true, Bool.and_self, if_true] at this
  exact this

theorem SumsExact.amount_le_sum (h : SumsExact s) (record : (s.slot i).record = some r) (live : r.isLive = true) :
    r.amount ≤ (s.channel r.channel).sum := by
  have := h.weight_le record (.sum r.channel)
  simpa [Figure.of, Figure.weight, only, Record.liveAmount, live] using this

/-- A channel that no record names has every sum and count at 0. -/
theorem SumsExact.channel_zero (h : SumsExact s) (none : ∀ j r, (s.slot j).record = some r → r.channel ≠ n) :
    (s.channel n).sum = 0 ∧ (s.channel n).live = 0 ∧ (s.channel n).queued = 0 :=
  ⟨h.figure_zero (g := .sum n) fun j r record => by simp [Figure.weight, only, none j r record],
    h.figure_zero (g := .live n) fun j r record => by simp [Figure.weight, only, none j r record],
    h.figure_zero (g := .queued n) fun j r record => by simp [Figure.weight, only, none j r record]⟩

/-! ## A record leaves -/

theorem Channel.stop_state (now : Tick) (x : Channel) : (x.stop now).state =
    if x.state.drives = true then (if x.profile.discharge = 0 then .off else .stopping) else x.state := by
  unfold Channel.stop ChannelState.drives
  cases e : x.state <;> simp only <;> split <;> simp_all [Channel.enter]

theorem GrantChannel.without (h : GrantChannel x) (r : Record) (more : r.isLive = true → 1 < x.live) :
    GrantChannel (x.without r) := by
  obtain ⟨driven, empty, refused, ceiling⟩ := h
  refine ⟨fun drives => ?_, fun st => ?_, fun st => ?_, (Nat.sub_le ..).trans ceiling⟩
  · have := driven drives
    simp only [Channel.without, only]
    split
    · next live => have := more live; omega
    · omega
  · have := empty st
    simp only [Channel.without]
    omega
  · have := refused st
    simp only [Channel.without]
    omega

/-- A channel without live grants that has been stopped. -/
theorem GrantChannel.stop (now : Tick) (x : Channel) (none : x.live = 0) (ceiling : x.sum ≤ x.profile.ceiling)
    (refused : x.state = .disabled ∨ x.state = .locked → x.queued = 0) : GrantChannel (x.stop now) := by
  obtain ⟨sum, live, queued⟩ := CountsKept.stop now x
  refine ⟨fun drives => ?_, fun _ => live.trans none, fun st => ?_, ?_⟩
  · rw [Channel.stop_state] at drives
    split at drives
    · split at drives <;> cases drives
    · next idle => exact absurd drives idle
  · rw [Channel.stop_state] at st
    split at st
    · split at st <;> simp at st
    · exact queued.trans (refused st)
  · rw [sum, (ChannelKept.stop now x).profile]
    exact ceiling

/-- A record has left the sums, and its channel has made its last-grant report. -/
theorem GrantsOk.left (h : GrantsOk s) (sums : SumsExact s) (record : (s.slot i).record = some r)
    (channel : ∀ m, u.channel m = if m = r.channel then (s.channel m).without r else s.channel m)
    (from_s : LiveFrom s u) (sums' : SumsExact u) : GrantsOk (lastGrant r u) := by
  obtain ⟨channels, powered⟩ := grantsOk_iff.1 h
  have own : u.channel r.channel = (s.channel r.channel).without r := by rw [channel, if_pos rfl]
  have from_s' : LiveFrom s (lastGrant r u) := from_s.trans (.of_same fun j => by rw [lastGrant_slot])
  rw [lastGrant_eq] at from_s' ⊢
  split at from_s'
  · next last =>
    obtain ⟨live, none⟩ := last
    rw [if_pos ⟨live, none⟩]
    refine grantsOk_iff.2 ⟨fun m => ?_, powered.congr from_s' fun j q now qlive => ?_⟩
    · rw [State.channel_setChannel]
      split
      · refine .stop _ _ none ?_ fun st => ?_
        · rw [own]
          exact (Nat.sub_le ..).trans (channels r.channel).ceiling
        · rw [own] at st ⊢
          have := (channels r.channel).refused st
          simp only [Channel.without]
          omega
      · next other =>
        rw [channel, if_neg other]
        exact channels m
    · have other : q.channel ≠ r.channel := fun e => by
        have := sums'.live_pos now qlive
        rw [e] at this
        omega
      rw [State.channel_setChannel, if_neg other, channel, if_neg other]
  · next more =>
    rw [if_neg more]
    have same : ∀ m, (u.setChannel r.channel (u.channel r.channel)).channel m = u.channel m := fun m => by
      rw [State.channel_setChannel]
      split
      · next e => rw [e]
      · rfl
    refine grantsOk_iff.2 ⟨fun m => ?_, powered.congr from_s' fun j q _ _ => ?_⟩
    · rw [same, channel]
      split
      · next e =>
        subst e
        refine (channels _).without r fun live => ?_
        have := sums.live_pos record live
        have : (u.channel r.channel).live ≠ 0 := fun none => more ⟨live, none⟩
        rw [own] at this
        simp only [Channel.without, only, live, if_true] at this
        omega
      · exact channels m
    · rw [same, channel]
      split <;> rfl

theorem GrantsOk.freeReporting (h : GrantsOk s) (sums : SumsExact s) (record : (s.slot i).record = some r) :
    GrantsOk (Machine.freeReporting i r s) :=
  h.left sums record (freeRecord_channel i r s) (.freeRecord i r s) (sums.freeRecord record)

theorem retireRecord_channel_eq (i : SlotId) (r : Record) (reason : Reason) (s : State) (m : ChannelId) :
    (retireRecord i r reason s).channel m = if m = r.channel then (s.channel m).without r else s.channel m :=
  ((EvaluationKeeps.post ..).channel m).trans (detach_channel_eq i r s m)

theorem GrantsOk.retireReporting (h : GrantsOk s) (sums : SumsExact s) (record : (s.slot i).record = some r)
    (reason : Reason) : GrantsOk (Machine.retireReporting reason i r s) :=
  h.left sums record (retireRecord_channel_eq i r reason s) (.retireRecord i r reason s) (sums.retireRecord record reason)

theorem Channel.without_tombstone (retired : r.isRetired = true) (x : Channel) : x.without r = x := by
  unfold Record.isRetired at retired
  split at retired
  · next reason e => simp [Channel.without, Record.liveAmount, Record.isLive, Record.isQueued, only, e]
  · cases retired

/-- Freeing a tombstone leaves every channel as it was. -/
theorem GrantsOk.freeTombstone (h : GrantsOk s) (i : SlotId) (retired : r.isRetired = true) :
    GrantsOk (Machine.freeRecord i r s) := by
  refine h.congr (.freeRecord i r s) fun n => ?_
  rw [freeRecord_channel]
  split
  · exact Channel.without_tombstone retired _
  · rfl

/-! ## A record enters -/

theorem Channel.gain_state (now : Tick) (amount : Nat) (x : Channel) : (x.gain now amount).state =
    if x.live = 0 ∧ x.state = .off then .starting else x.state := by
  unfold Channel.gain Channel.firstGrant Channel.beginStart Channel.enter
  cases e : x.state <;> by_cases none : x.live = 0 <;> simp [none]

theorem GrantChannel.gain (h : GrantChannel x) (now : Tick) {amount : Nat} (joins : x.state ≠ .disabled)
    (unlocked : x.state ≠ .locked) (cool : x.state ≠ .faulted) (fits : x.sum + amount ≤ x.profile.ceiling) :
    GrantChannel (x.gain now amount) := by
  obtain ⟨sum, live, queued⟩ := x.gain_counts now amount
  refine ⟨fun _ => by omega, fun st => ?_, fun st => ?_, ?_⟩
  · rw [Channel.gain_state] at st
    split at st
    · simp at st
    · next first =>
      have off : x.state = .off := by simpa [joins, unlocked, cool] using st
      exact absurd ⟨h.empty (.inl off), off⟩ first
  · rw [Channel.gain_state] at st
    split at st
    · simp at st
    · simp [joins, unlocked] at st
  · rw [sum, (ChannelKept.gain ..).profile]
    exact fits

theorem Channel.gain_on (now : Tick) (amount : Nat) (x : Channel) :
    (x.gain now amount).state = .on ↔ x.state = .on := by
  rw [Channel.gain_state]
  split
  · next first => simp [first.2]
  · rfl

/-- A record becomes live on a channel that takes it (R61). -/
theorem GrantsOk.enterLive (h : GrantsOk s) (i : SlotId) (r : Record) (joins : (s.channel r.channel).state ≠ .disabled)
    (unlocked : (s.channel r.channel).state ≠ .locked) (cool : (s.channel r.channel).state ≠ .faulted)
    (fits : (s.channel r.channel).sum + r.amount ≤ (s.channel r.channel).profile.ceiling) :
    GrantsOk (Machine.enterLive i r s) := by
  obtain ⟨channels, powered⟩ := grantsOk_iff.1 h
  have on : ∀ m, ((Machine.enterLive i r s).channel m).state = .on ↔ (s.channel m).state = .on := fun m => by
    rw [enterLive_channel]
    split
    · exact Channel.gain_on ..
    · rfl
  refine grantsOk_iff.2 ⟨fun m => ?_, fun j q record live => ?_⟩
  · rw [enterLive_channel]
    split
    · next e =>
      subst e
      exact (channels _).gain _ joins unlocked cool fits
    · exact channels m
  · rw [decide_eq_decide.2 (on q.channel)]
    rw [enterLive_slot_eq] at record
    split at record
    · cases record
      rfl
    · exact powered j q record live

theorem GrantsOk.post (h : GrantsOk s) (i : SlotId) (kind : NoticeKind) : GrantsOk (Machine.post i kind s) :=
  h.congr (.post i kind s) (post_channel i kind s)

theorem GrantsOk.admitQueued (h : GrantsOk s) (sums : SumsExact s) (record : (s.slot i).record = some r)
    (queued : r.isQueued = true) (cool : (s.channel r.channel).state ≠ .faulted)
    (fits : (s.channel r.channel).sum + r.amount ≤ (s.channel r.channel).profile.ceiling) :
    GrantsOk (Machine.admitQueued i s) := by
  obtain ⟨kind, e⟩ := admitQueued_eq record
  have waits := sums.queued_pos record queued
  have open_ : (s.channel r.channel).state ≠ .disabled ∧ (s.channel r.channel).state ≠ .locked :=
    ⟨fun st => by have := h.refused _ (.inl st); omega, fun st => by have := h.refused _ (.inr st); omega⟩
  obtain ⟨channels, powered⟩ := grantsOk_iff.1 h
  have unqueued : GrantsOk (unqueue i r s) := by
    refine GrantsOk.setChannel (s := { s with waitQueue := without i s.waitQueue }) (h.congr (.of_same fun _ => rfl)
      fun _ => rfl) ?_ .rfl
    obtain ⟨driven, empty, refused, ceiling⟩ := channels r.channel
    exact ⟨driven, empty, fun st => by rw [Channel.unqueued, refused st], ceiling⟩
  have own : (unqueue i r s).channel r.channel = (s.channel r.channel).unqueued := by rw [unqueue_channel, if_pos rfl]
  rw [e]
  refine (unqueued.enterLive i r ?_ ?_ ?_ ?_).post i kind
  all_goals rw [own]
  · exact open_.1
  · exact open_.2
  · exact cool
  · exact fits

theorem GrantsOk.walk (h : GrantsOk s) (sums : SumsExact s) : GrantsOk (Machine.walk s) := by
  have both : SumsExact (Machine.walk s) ∧ GrantsOk (Machine.walk s) :=
    walk_keeps (P := fun t => SumsExact t ∧ GrantsOk t) ⟨sums, h⟩ fun i t taken ⟨sums, h⟩ => by
      obtain ⟨r, record, queued, cool, fits, -⟩ := visit_take taken
      exact ⟨sums.admitQueued record queued, h.admitQueued sums record queued cool fits⟩
  exact both.2

/-! ## Hand-offs -/

theorem LiveFrom.noticeEnded (record : (s.slot i).record = some r) {p : Bool} {l : Option Tick} {n : Notice}
    (live : r.phase = .live p l (some n)) : LiveFrom s (Machine.noticeEnded i r p l n s) :=
  (LiveFrom.setRecord (r' := { r with phase := .live p l none }) record fun _ => .of_live live rfl).trans
    (.of_same fun _ => rfl)

theorem LiveFrom.withdrawNotice (record : (s.slot i).record = some r) (noticed : r.notice?.isSome = true) :
    LiveFrom s (Machine.withdrawNotice i s) := by
  obtain ⟨n, hn⟩ := Option.isSome_iff_exists.1 noticed
  obtain ⟨p, l, live⟩ := Record.phase_of_notice hn
  rw [Machine.withdrawNotice, endNotice_noticed record live]
  exact (LiveFrom.noticeEnded record live).trans (LiveFrom.post i _ _)

theorem LiveFrom.postReduce (i : SlotId) (q : Nat) (s : State) : LiveFrom s (Machine.postReduce i q s) := by
  obtain e | ⟨r, p, l, record, active, e⟩ := postReduce_cases i q s
  · rw [e]
    exact .refl s
  · rw [e]
    have set : LiveFrom s (setNotice i r p l q s) :=
      (LiveFrom.setRecord (r' := { r with phase := .live p l (some (freshNotice q s)) }) record
        fun _ => .of_live active rfl).trans (.of_same fun _ => rfl)
    exact set.trans (LiveFrom.post i _ _)

theorem LiveFrom.evaluate (s : State) : LiveFrom s (Machine.evaluate s) :=
  evaluate_keepsAll (P := LiveFrom s) (.refl s) (fun i q t h => h.trans (.postReduce i q t))
    (fun _ _ _ record noticed h => h.trans (.withdrawNotice record noticed)) fun _ _ _ h => h.trans (.of_same fun _ => rfl)

theorem GrantsOk.evaluate (h : GrantsOk s) : GrantsOk (Machine.evaluate s) :=
  h.congr (.evaluate s) (evaluate_keeps s).channel

theorem GrantsOk.handOn (h : GrantsOk s) (sums : SumsExact s) (e w : Bool) : GrantsOk (Machine.handOn e w s) := by
  have both : SumsExact (Machine.handOn e w s) ∧ GrantsOk (Machine.handOn e w s) :=
    handOn_keepsAll (P := fun t => SumsExact t ∧ GrantsOk t) e w ⟨sums, h⟩ (fun _ ht => ⟨ht.1.evaluate, ht.2.evaluate⟩)
      fun _ ht => ⟨ht.1.walk, ht.2.walk ht.1⟩
  exact both.2

theorem GrantsOk.rebudget (h : GrantsOk s) (sums : SumsExact s) : GrantsOk (Machine.rebudget s) := by
  obtain ⟨-, e⟩ | ⟨-, e⟩ := rebudget_cases s <;> rw [e]
  · exact h
  · exact GrantsOk.handOn (h.same (.budget s _)) (sums.same (.budget s _)) _ _

/-! ## Changes of amount -/

/-- The amount of a live record changes, within its channel's ceiling (R18). -/
theorem GrantsOk.changeAmount (h : GrantsOk s) (record : (s.slot i).record = some r) (live : r.isLive = true) {a : Nat}
    (fits : (s.channel r.channel).sum - r.amount + a ≤ (s.channel r.channel).profile.ceiling) :
    GrantsOk (Machine.changeAmount i r a s) := by
  obtain ⟨channels, powered⟩ := grantsOk_iff.1 h
  refine grantsOk_iff.2 ⟨fun m => ?_, powered.congr (.write i (fun j other => ?_) fun q now qlive => ?_) fun j q _ _ => ?_⟩
  · rw [changeAmount_channel]
    split
    · next e =>
      subst e
      obtain ⟨driven, empty, refused, -⟩ := channels r.channel
      exact ⟨driven, empty, refused, fits⟩
    · exact channels m
  · rw [changeAmount_slot, if_neg other]
  · rw [changeAmount_slot, if_pos rfl] at now
    cases now
    exact ⟨r, record, live, rfl, rfl, rfl⟩
  · rw [changeAmount_channel]
    split <;> rfl

/-- Lowering an amount stays within the ceiling. -/
theorem GrantsOk.lower (h : GrantsOk s) (sums : SumsExact s) (record : (s.slot i).record = some r)
    (live : r.isLive = true) {a : Nat} (lower : a ≤ r.amount) : GrantsOk (Machine.changeAmount i r a s) := by
  have := sums.amount_le_sum record live
  have := h.ceiling r.channel
  exact h.changeAmount record live (by omega)

theorem GrantsOk.acceptNotice (h : GrantsOk s) (sums : SumsExact s) (records : RecordsOk s) {n : Notice}
    (record : (s.slot i).record = some r) (noticed : r.notice? = some n) :
    GrantsOk (Machine.acceptNotice i n.required s) := by
  obtain ⟨p, l, live⟩ := Record.phase_of_notice noticed
  have lower := ((records i r record).notice n noticed).1.le
  have ended : GrantsOk (noticeEnded i r p l n s) := h.congr (.noticeEnded record live) fun _ => rfl
  have slot : ((noticeEnded i r p l n s).slot i).record = some { r with phase := .live p l none } := by
    rw [noticeEnded_slot, if_pos rfl]
  rw [acceptNotice_eq record live]
  refine GrantsOk.lower (ended.congr (.setKinds slot _) fun _ => rfl) ((sums.noticeEnded record live).setKinds slot _) ?_
    rfl lower
  rw [setKinds_slot, if_pos rfl]

/-! ## Faults and power-good -/

theorem faultRetired_channel_other (cause : Cause) (other : m ≠ n) :
    ((faultRetired n cause s).channel m).state = (s.channel m).state ∧
      ((faultRetired n cause s).channel m).profile = (s.channel m).profile := by
  have entered : (faultEntered n cause s).channel m = s.channel m := by
    obtain ⟨-, e⟩ | ⟨-, e⟩ := faultEntered_cases n cause s <;> rw [e]
    · exact (s.channel_setChannel n m _).trans (if_neg other)
    · exact (s.channel_setChannel n m _).trans (if_neg other)
  have kept := (retireFaulted_channel (openOrder (faultEnds n s) s) (faultEntered n cause s) m).sameDrive
  rw [entered] at kept
  exact ⟨kept.state, kept.profile⟩

/-- The shares of the records in the figures of another channel are as they were. -/
theorem faultRetired_share (cause : Cause) (j : SlotId) {g : Figure}
    (foreign : ∀ r : Record, r.channel = n → g.weight r = 0) :
    g.share ((faultRetired n cause s).slot j).record = g.share (s.slot j).record := by
  by_cases ends : j ∈ faultEnds n s
  · obtain ⟨r, record, here, -⟩ := mem_faultEnds.1 ends
    rw [faultRetired_slot cause ends record, record]
    exact (foreign (r.tombstone (faultReason r)) here).trans (foreign r here).symm
  · rw [(faultRetired_other cause ends).1]

/-- A record of the channel that outlasts the fault is not live, and does not wait where the fault locks the channel. -/
theorem faultRetired_record {cause : Cause} (record : ((faultRetired n cause s).slot j).record = some r)
    (here : r.channel = n) : r.isLive = false ∧ ((s.channel n).locks = true → r.isQueued = false) := by
  by_cases ends : j ∈ faultEnds n s
  · obtain ⟨q, before, -⟩ := mem_faultEnds.1 ends
    rw [faultRetired_slot cause ends before] at record
    cases record
    exact ⟨rfl, fun _ => rfl⟩
  · rw [(faultRetired_other cause ends).1] at record
    exact ⟨Bool.eq_false_iff.2 fun live => ends (mem_faultEnds.2 ⟨r, record, here, .inl live⟩),
      fun locks => Bool.eq_false_iff.2 fun queued => ends (mem_faultEnds.2 ⟨r, record, here, .inr ⟨locks, queued⟩⟩)⟩

theorem LiveFrom.faultRetired (n : ChannelId) (cause : Cause) (s : State) :
    LiveFrom s (Machine.faultRetired n cause s) := by
  intro j r' record live
  by_cases ends : j ∈ faultEnds n s
  · obtain ⟨q, before, -⟩ := mem_faultEnds.1 ends
    rw [faultRetired_slot cause ends before] at record
    cases record
    cases live
  · rw [(faultRetired_other cause ends).1] at record
    exact ⟨r', record, live, rfl, rfl, rfl⟩

theorem GrantsOk.faultRetired (h : GrantsOk s) (sums : SumsExact s) (n : ChannelId) (cause : Cause) :
    GrantsOk (Machine.faultRetired n cause s) := by
  have sums' := sums.faultRetired n cause
  obtain ⟨channels, powered⟩ := grantsOk_iff.1 h
  have own := (faultRetired_channel n cause s).sameDrive
  have none : ((Machine.faultRetired n cause s).channel n).live = 0 :=
    sums'.figure_zero (g := .live n) fun j r record => by
      by_cases here : r.channel = n <;> simp [Figure.weight, only, here, faultRetired_record record]
  refine grantsOk_iff.2 ⟨fun m => ?_, powered.congr (.faultRetired n cause s) fun j q record live => ?_⟩
  · by_cases other : m = n
    · subst other
      refine ⟨fun drives => ?_, fun _ => none, fun st => ?_, ?_⟩
      · rw [own.state, Channel.faultedAt] at drives
        cases locks : (s.channel m).locks <;> simp [locks, ChannelState.drives] at drives
      · have locks : (s.channel m).locks = true := by
          rw [own.state, Channel.faultedAt] at st
          cases locks : (s.channel m).locks <;> simp [locks] at st ⊢
        exact sums'.figure_zero (g := .queued m) fun j r record => by
          by_cases here : r.channel = m
          · simp [Figure.weight, only, (faultRetired_record record here).2 locks]
          · simp [Figure.weight, only, here]
      · have zero : ((Machine.faultRetired m cause s).channel m).sum = 0 :=
          sums'.figure_zero (g := .sum m) fun j r record => by
            by_cases here : r.channel = m
            · simp [Figure.weight, only, Record.liveAmount, (faultRetired_record record here).1]
            · simp [Figure.weight, only, here]
        omega
    · obtain ⟨state, profile⟩ := faultRetired_channel_other (s := s) cause other
      obtain ⟨driven, empty, refused, ceiling⟩ := channels m
      have same (g : Figure) (foreign : ∀ r : Record, r.channel = n → g.weight r = 0) :=
        sums.figure_eq sums' fun j => faultRetired_share cause j foreign
      have apart : ∀ r : Record, r.channel = n → r.channel ≠ m := fun r here e => other (e.symm.trans here)
      have live : _ = _ := same (.live m) fun r here => by simp [Figure.weight, only, apart r here]
      have queued : _ = _ := same (.queued m) fun r here => by simp [Figure.weight, only, apart r here]
      have sum : _ = _ := same (.sum m) fun r here => by simp [Figure.weight, only, apart r here]
      simp only [Figure.of] at live queued sum
      refine ⟨?_, ?_, ?_, ?_⟩
      · rwa [state, live]
      · rwa [state, live]
      · rwa [state, queued]
      · rwa [sum, profile]
  · have other : q.channel ≠ n := fun here => by simp [(faultRetired_record record here).1] at live
    rw [(faultRetired_channel_other cause other).1]

theorem GrantsOk.fault (h : GrantsOk s) (sums : SumsExact s) (n : ChannelId) (cause : Cause) :
    GrantsOk (Machine.fault n cause s) := by
  rw [fault_eq]
  exact (h.faultRetired sums n cause).handOn (sums.faultRetired n cause) _ _

/-- The live grants of channel `n`. -/
def grantsOf (n : ChannelId) (s : State) : List SlotId :=
  slotsWhere (fun r => decide (r.channel = n) && r.isLive) s

theorem mem_grantsOf : j ∈ grantsOf n s ↔ ∃ r, (s.slot j).record = some r ∧ r.channel = n ∧ r.isLive = true := by
  simp [grantsOf, Option.any_eq_true]

/-- The channel that a power-good brings ON (R113). -/
def Channel.cameUp (x : Channel) (s : State) : Channel :=
  x.enter .on (some (.clean, deadlineIn (x.profile.clean * 1000) s))

theorem comeUp_starting (starting : (s.channel n).state = .starting) : comeUp n s =
    nextOrder (overRecords markPowered (openOrder (grantsOf n s) (s.setChannel n ((s.channel n).cameUp s)))
      (s.setChannel n ((s.channel n).cameUp s))) := by
  unfold comeUp
  rw [if_pos starting]
  rfl

theorem comeUp_other (idle : (s.channel n).state ≠ .starting) : comeUp n s = s := if_neg idle

theorem markPowered_slot_other (r : Record) (s : State) (other : j ≠ i) : (markPowered i r s).slot j = s.slot j := by
  unfold markPowered
  split
  · rw [post_slot_other _ _ other, State.slot_setRecord_other _ _ other]
  · rfl

/-- The record after a power-good of its channel (R8, R137). -/
def Record.poweredUp (r : Record) : Record :=
  match r.phase with
  | .live _ lease notice => { r with phase := .live true lease notice, kinds := r.kinds.merge .ready }
  | _ => r

theorem Record.poweredUp_of_live {p : Bool} {l : Option Tick} {x : Option Notice} (live : r.phase = .live p l x) :
    r.poweredUp = { r with phase := .live true l x, kinds := r.kinds.merge .ready } := by
  simp only [Record.poweredUp, live]

theorem markPowered_live {p : Bool} {l : Option Tick} {x : Option Notice} (live : r.phase = .live p l x) :
    markPowered i r s = post i .ready (s.setRecord i { r with phase := .live true l x }) := by
  simp only [markPowered, live]

theorem markPowered_slot_same (live : r.isLive = true) :
    (markPowered i r s).slot i = { gen := (s.slot i).gen, record := some r.poweredUp } := by
  obtain ⟨p, l, x, phase⟩ := Record.isLive_iff.1 live
  have set : ((s.setRecord i { r with phase := .live true l x }).slot i).record =
    some { r with phase := .live true l x } := by rw [State.slot_setRecord_same]
  rw [markPowered_live phase, post_slot_same _ set, State.slot_setRecord_same, Record.poweredUp_of_live phase]

/-- A power-good marks the live grants of its channel powered, and leaves every other slot as it was. -/
theorem comeUp_slot (starting : (s.channel n).state = .starting) (j : SlotId) : (comeUp n s).slot j =
    match (s.slot j).record with
    | some r => if r.channel = n ∧ r.isLive = true then { gen := (s.slot j).gen, record := some r.poweredUp }
                else s.slot j
    | none => s.slot j := by
  have same (j : SlotId) : (s.setChannel n ((s.channel n).cameUp s)).slot j = s.slot j := rfl
  have others : ∀ i r t, j ≠ i → (markPowered i r t).slot j = t.slot j := fun i r t other => markPowered_slot_other r t other
  have nodup : (openOrder (grantsOf n s) (s.setChannel n ((s.channel n).cameUp s))).Nodup :=
    (openOrder_perm ..).nodup_iff.2 (slotsWhere_nodup _ s)
  rw [comeUp_starting starting]
  change (overRecords markPowered _ _).slot j = _
  by_cases grant : j ∈ grantsOf n s
  · obtain ⟨r, record, here, live⟩ := mem_grantsOf.1 grant
    rw [overRecords_slot (x := { gen := (s.slot j).gen, record := some r.poweredUp }) nodup (mem_openOrder.2 grant) others
      ((same j).symm ▸ record) fun t ht => by rw [markPowered_slot_same live, ht, same]]
    simp only [record, here, live, and_self, if_true]
  · rw [overRecords_slot_other others (mt mem_openOrder.1 grant), same]
    split
    · next r record => rw [if_neg fun mine => grant (mem_grantsOf.2 ⟨r, record, mine⟩)]
    · rfl

theorem comeUp_channel (starting : (s.channel n).state = .starting) (m : ChannelId) : (comeUp n s).channel m =
    if m = n then (s.channel n).cameUp s else s.channel m := by
  rw [comeUp_starting starting, ← State.channel_setChannel]
  exact overRecords_keeps (P := fun t => t.channel m = (s.setChannel n ((s.channel n).cameUp s)).channel m) rfl
    fun i r t _ _ same => (markPowered_channel i r t m).trans same

theorem Record.poweredUp_live (live : r.isLive = true) : r.poweredUp.powered = true := by
  obtain ⟨p, l, x, phase⟩ := Record.isLive_iff.1 live
  rw [Record.poweredUp_of_live phase]
  rfl

theorem Record.poweredUp_same (r : Record) : r.poweredUp.channel = r.channel ∧ r.poweredUp.cls = r.cls := by
  unfold Record.poweredUp
  split <;> exact ⟨rfl, rfl⟩

theorem GrantsOk.comeUp (h : GrantsOk s) (n : ChannelId) : GrantsOk (Machine.comeUp n s) := by
  by_cases starting : (s.channel n).state = .starting
  · obtain ⟨channels, powered⟩ := grantsOk_iff.1 h
    refine grantsOk_iff.2 ⟨fun m => ?_, fun j q record live => ?_⟩
    · rw [comeUp_channel starting]
      split
      · obtain ⟨driven, -, -, ceiling⟩ := channels n
        exact ⟨fun _ => driven (by rw [starting]; rfl), by simp [Channel.cameUp, Channel.enter],
          by simp [Channel.cameUp, Channel.enter], ceiling⟩
      · exact channels m
    · rw [comeUp_slot starting] at record
      rw [comeUp_channel starting]
      cases before : (s.slot j).record with
      | none => simp [before] at record
      | some r =>
        simp only [before] at record
        split at record
        · next mine =>
          cases record
          rw [Record.poweredUp_live mine.2, (Record.poweredUp_same r).1, if_pos mine.1]
          rfl
        · next other =>
          rw [before] at record
          cases record
          rw [if_neg fun here => other ⟨here, live⟩]
          exact powered j q before live
  · rwa [comeUp_other starting]

/-! ## Every change -/

theorem GrantsOk.recordsFreed (h : GrantsOk s) (sums : SumsExact s) (d : ClientId) :
    GrantsOk (Machine.recordsFreed d s) := by
  have both : SumsExact (Machine.recordsFreed d s) ∧ GrantsOk (Machine.recordsFreed d s) :=
    overRecords_keeps (P := fun t => SumsExact t ∧ GrantsOk t) ⟨sums, h⟩ fun i r t _ record ht =>
      ⟨ht.1.freeReporting record, ht.2.freeReporting ht.1 record⟩
  exact both.2

theorem GrantsOk.bulkClear (s : State) : GrantsOk (Machine.bulkClear s) := by
  refine grantsOk_iff.2 ⟨fun n => ?_, fun i r record => ?_⟩
  · rw [bulkClear_channel]
    refine ⟨fun drives => ?_, fun _ => rfl, fun _ => rfl, Nat.zero_le _⟩
    change ((s.channel n).stop s.tick).state.drives = true at drives
    rw [Channel.stop_state] at drives
    split at drives
    · split at drives <;> cases drives
    · next idle => exact absurd drives idle
  · rw [bulkClear_slot, Slot.cleared_record] at record
    cases record

/-- What a channel write leaves has the grants that its state allows. -/
theorem ChannelWrite.grantChannel (write : ChannelWrite s n y) (sums : SumsExact s) (h : GrantChannel (s.channel n)) :
    GrantChannel y ∧ (y.state = .on ↔ (s.channel n).state = .on) := by
  obtain ⟨driven, empty, refused, ceiling⟩ := h
  cases write with
  | level => exact ⟨⟨driven, empty, refused, ceiling⟩, .rfl⟩
  | clean => exact ⟨⟨driven, empty, refused, ceiling⟩, .rfl⟩
  | discharged stopping =>
    split
    · next none => exact ⟨⟨nofun, fun _ => none, by simp [Channel.enter], ceiling⟩, by simp [stopping, Channel.enter]⟩
    · next some_live =>
      exact ⟨⟨fun _ => Nat.pos_of_ne_zero some_live, by simp [Channel.beginStart, Channel.enter],
        by simp [Channel.beginStart, Channel.enter], ceiling⟩, by simp [stopping, Channel.beginStart, Channel.enter]⟩
  | unlock locked =>
    have none := empty (.inr (.inr (.inr locked)))
    exact ⟨⟨nofun, fun _ => none, by simp [Channel.unlocked], ceiling⟩, by simp [locked, Channel.unlocked]⟩
  | key k v inRange free =>
    obtain ⟨sum, live, queued⟩ := sums.channel_zero free.records
    have kept := ChannelWrite.countsKept (.key k v inRange free)
    have state : ((s.channel n).keyWritten k v).state = .disabled ∨ ((s.channel n).keyWritten k v).state = .off ∨
        ((s.channel n).keyWritten k v).state = .locked := by
      unfold Channel.keyWritten
      dsimp only
      split
      · unfold Channel.enableWritten
        split
        · exact .inr (.inl rfl)
        · exact .inl rfl
        · exact .inl rfl
        · exact free.state
      · exact free.state
    have idle : ((s.channel n).keyWritten k v).state.drives = false ∧ ((s.channel n).keyWritten k v).state ≠ .on := by
      obtain e | e | e := state <;> rw [e] <;> exact ⟨rfl, nofun⟩
    have before : (s.channel n).state ≠ .on := by
      obtain e | e | e := free.state <;> rw [e] <;> nofun
    refine ⟨⟨fun drives => by simp [idle.1] at drives, fun _ => kept.live.trans live, fun _ => kept.queued.trans queued, ?_⟩,
      iff_of_false idle.2 before⟩
    rw [kept.sum, sum]
    exact Nat.zero_le _

/-- A channel that a request may name is not DISABLED and not LOCKED (R56). -/
theorem RequestPasses.channel (h : RequestPasses c a s) :
    (s.channel a.channel).state ≠ .disabled ∧ (s.channel a.channel).state ≠ .locked := by
  have available := h.available
  refine ⟨fun st => ?_, fun st => ?_⟩ <;> simp [st, channelAvailable] at available

/-- What a RESIZE up has passed (R74). -/
theorem growth_passes {a : Nat} (passes : firstFailure (growthTests r a s) = none) :
    a ≤ (s.channel r.channel).profile.ceiling ∧
    (s.client r.owner).held + (a - r.amount) ≤ (s.client r.owner).quota ∧
    s.mode = .run ∧ s.shed = .idle ∧ (∀ j ∈ s.waitQueue, r.cls.val < classOf s j) ∧
    (s.channel r.channel).sum + (a - r.amount) ≤ (s.channel r.channel).profile.ceiling ∧
    a - r.amount ≤ headroom r.cls s := by
  have all := firstFailure_eq_none.1 passes
  simp only [growthTests, List.forall_mem_cons, decide_eq_true_eq] at all
  obtain ⟨ceiling, quota, room, -⟩ := all
  exact ⟨ceiling, quota, room⟩

theorem Move.keeps_grants (move : Move s t) (sums : SumsExact s) (notices : NoticesExact s) (records : RecordsOk s)
    (h : GrantsOk s) : GrantsOk t := by
  have channels := (grantsOk_iff.1 h).1
  cases move with
  | aside same => exact h.same same.sameRecords
  | @enter c a i can fits =>
    obtain ⟨joins, unlocked⟩ := can.passes.channel
    exact GrantsOk.enterLive (h.setClient c _ : GrantsOk (chargeClient c a.amount s)) i _ joins unlocked fits.cool
      fits.ceiling
  | @queue c a i can =>
    obtain ⟨joins, unlocked⟩ := can.passes.channel
    refine grantsOk_iff.2 ⟨fun m => ?_, ?_⟩
    · rw [queueRequest_channel]
      split
      · next e =>
        subst e
        obtain ⟨driven, empty, -, ceiling⟩ := channels a.channel
        exact ⟨driven, empty, fun st => by simp [joins, unlocked] at st, ceiling⟩
      · exact channels m
    · refine (grantsOk_iff.1 h).2.congr (.write i (fun j other => ?_) fun q now live => ?_) fun j q _ _ => ?_
      · rw [queueRequest_slot, if_neg other]
      · rw [queueRequest_slot, if_pos rfl] at now
        cases now
        cases live
      · rw [queueRequest_channel]
        split <;> rfl
  | free record => exact (h.freeReporting sums record).handOn (sums.freeReporting record) _ _
  | retire reason record => exact (h.retireReporting sums record reason).handOn (sums.retireReporting record reason) _ _
  | shrink record active positive lower =>
    obtain ⟨p, l, live⟩ := Record.phase_of_active active
    exact (h.lower sums record (by rw [Record.isLive, live]) lower.le).handOn (sums.changeAmount record live _) _ _
  | @grow i r a record active higher most passes =>
    obtain ⟨p, l, live⟩ := Record.phase_of_active active
    have isLive : r.isLive = true := by rw [Record.isLive, live]
    obtain ⟨-, -, -, -, -, fits, -⟩ := growth_passes passes
    have held := sums.amount_le_sum record isLive
    have grown := h.changeAmount record isLive (a := a) (by omega)
    exact grown.congr (.of_same fun _ => rfl) fun _ => rfl
  | accept record noticed =>
    exact (h.acceptNotice sums records record noticed).handOn (sums.acceptNotice record noticed _) _ _
  | renew record live | extend record live =>
    exact h.congr (.setRecord record fun _ => .of_live live rfl) fun _ => rfl
  | @deliver i r c rest head record =>
    unfold Machine.deliver
    split
    · next retired => exact h.freeTombstone i ((notices.retired i r record).2 retired)
    · exact h.congr (.setKinds record _) fun _ => rfl
  | openSession => exact h.setClient ..
  | @closeSession d =>
    exact ((h.recordsFreed sums d).setClient d _).handOn
      ((sums.recordsFreed d).setClosed fun _ _ record => recordsFreed_owner record) _ _
  | setting walks => exact GrantsOk.handOn (h.same (.setting s _)) (sums.same (.setting s _)) _ _
  | budget => exact GrantsOk.rebudget (h.same (.setting s _)) (sums.same (.setting s _))
  | start => exact GrantsOk.setClient (h.same (.mode s .run)) _ _
  | hold => exact h.same (.mode s _)
  | resume => exact GrantsOk.walk (h.same (.mode s _)) (sums.same (.mode s _))
  | safe | restart => exact (GrantsOk.bulkClear s).same (by constructor <;> rfl)
  | channel write =>
    obtain ⟨ok, on⟩ := write.grantChannel sums (channels _)
    exact h.setChannel ok on
  | @cool n faulted =>
    obtain ⟨-, empty, -, ceiling⟩ := channels n
    have none := empty (.inr (.inr (.inl faulted)))
    refine GrantsOk.walk (s := cooledDown n s) (h.setChannel ⟨nofun, fun _ => none, by simp, ceiling⟩ (by simp [faulted])) ?_
    exact sums.setChannel ⟨rfl, rfl, rfl⟩
  | fault cause => exact h.fault sums _ cause
  | comeUp => exact h.comeUp _
  | settle => exact GrantsOk.rebudget (h.same (.selectTier s _)) (sums.same (.selectTier s _))
  | lineChange v => exact h.same (.takeLineChange s v)

end Sys2Proof.Machine
end

section
/-! PROOF. What every change keeps of the clients (R17, R129) and of the states that serve none (R147). -/

namespace Sys2Proof.Machine

/- One proof after another: side by side they need more memory than the check allows. -/
set_option Elab.async false

variable {s t u : State} {i j : SlotId} {r r' : Record} {c d : ClientId} {n m : ChannelId} {a : Ask} {o : Client}

/-! ## Owners -/

/-- The owner of every record is OPEN in `s`. -/
def OwnersOpen (s t : State) : Prop := ∀ i r, (t.slot i).record = some r → (s.client r.owner).isOpen = true

theorem SumsExact.occupied_pos (h : SumsExact s) (record : (s.slot i).record = some r) :
    0 < (s.client r.owner).occupied := by
  have := h.weight_le record (.occupied r.owner)
  simpa [Figure.of, Figure.weight, only, Nat.succ_le_iff] using this

theorem SumsExact.amount_le_held (h : SumsExact s) (record : (s.slot i).record = some r) (live : r.isLive = true) :
    r.amount ≤ (s.client r.owner).held := by
  have := h.weight_le record (.held r.owner)
  simpa [Figure.of, Figure.weight, only, Record.heldAmount, live] using this

/-- A record has an OPEN owner: a CLOSED entry counts none (R129). -/
theorem ClientsOk.ownersOpen (h : ClientsOk s) (sums : SumsExact s) : OwnersOpen s s := by
  intro i r record
  refine Bool.of_not_eq_false fun closed => ?_
  have := sums.occupied_pos record
  rw [h.closed _ closed] at this
  exact absurd this (lt_irrefl 0)

/-- No change of a record changes its owner, and a request of an OPEN client makes its records. -/
theorem lasting_owner (s : State) : Lasting s fun _ r => RecordOk r ∧ (s.client r.owner).isOpen = true := by
  have ranges := lasting_recordOk s
  exact {
    ok := fun h => h.1
    kinds := fun k h => ⟨ranges.kinds (i := 0) k h.1, h.2⟩
    powered := fun p h live => ⟨ranges.powered (i := 0) p h.1 live, h.2⟩
    retired := fun reason h => ⟨ranges.retired (i := 0) reason h.1, h.2⟩
    entered := fun p h => ⟨ranges.entered (i := 0) p h.1, h.2⟩
    ended := fun h live => ⟨ranges.ended (i := 0) h.1 live, h.2⟩
    noticed := fun h live below least most => ⟨ranges.noticed (i := 0) h.1 live below least most, h.2⟩
    reamounted := fun h live least most => ⟨ranges.reamounted (i := 0) h.1 live least most, h.2⟩
    renewed := fun h live leased => ⟨ranges.renewed (i := 0) h.1 live leased, h.2⟩
    extended := fun h live below least most => ⟨ranges.extended (i := 0) h.1 live below least most, h.2⟩
    admitted := fun p can ok => ⟨ranges.admitted p can ok, can.session⟩
    queued := fun can ok => ⟨ranges.queued can ok, can.session⟩ }

theorem Move.owners (move : Move s t) (settings : SettingsOk s) (records : RecordsOk s) (open_ : OwnersOpen s s) :
    OwnersOpen s t := fun i r record =>
  ((move.keeps_each (lasting_owner s)
    ⟨rfl, (settingsOk_iff.1 settings).1, fun i r record => ⟨records i r record, open_ i r record⟩⟩).record i r record).2

theorem HandOff.owners (h : HandOff s t) (open_ : OwnersOpen u s) : OwnersOpen u t := by
  intro i r' record
  have moves := h.frame.slots i id
  cases before : (s.slot i).record with
  | none => simp [moves.free before] at record
  | some r =>
    obtain ⟨q, now, same, -⟩ := moves.record r before
    rw [record] at now
    cases now
    rw [same.owner]
    exact open_ i r before

/-! ## What is left of a client without records -/

/-- The rights of a CLOSED entry, without a record of its own, are a CLOSED entry (R129). -/
theorem closed_of_rights (sums : SumsExact s) (notices : NoticesExact s) (rights : RightsKept Client.closed (s.client c))
    (none : ∀ j r, (s.slot j).record = some r → r.owner ≠ c) : s.client c = Client.closed := by
  have committed : (s.client c).committed = 0 :=
    sums.figure_zero (g := .client c) fun j r record => by simp [Figure.weight, only, none j r record]
  have held : (s.client c).held = 0 :=
    sums.figure_zero (g := .held c) fun j r record => by simp [Figure.weight, only, none j r record]
  have occupied : (s.client c).occupied = 0 :=
    sums.figure_zero (g := .occupied c) fun j r record => by simp [Figure.weight, only, none j r record]
  have empty : (s.client c).notices = [] := by
    refine List.eq_nil_iff_forall_not_mem.2 fun j member => ?_
    obtain ⟨r, record, own, -⟩ : ∃ r, (s.slot j).record = some r ∧ r.owner = c ∧ r.kinds.isEmpty = false := by
      simpa [Option.any_eq_true] using ((notices.queue c).exactly j).1 member
    exact none j r record own
  obtain ⟨isOpen, quota, limit, best, attention⟩ := rights
  generalize s.client c = o at *
  cases o
  simp only at *
  subst_vars
  rfl

/-- Clients that keep their rights, hold no more than their rights allow, and own no record while CLOSED. -/
theorem ClientsOk.of_rights (h : ClientsOk s) (rights : ∀ c, RightsKept (s.client c) (t.client c))
    (within : ∀ c, (s.client c).isOpen = true →
      (t.client c).held ≤ (s.client c).quota ∧ (t.client c).occupied ≤ (s.client c).limit)
    (owners : OwnersOpen s t) (sums : SumsExact t) (notices : NoticesExact t) : ClientsOk t := by
  refine ⟨fun c session => ?_, fun c closed => ?_⟩
  · rw [(rights c).isOpen] at session
    rw [(rights c).quota, (rights c).limit]
    exact within c session
  · rw [(rights c).isOpen] at closed
    refine closed_of_rights sums notices (h.closed c closed ▸ rights c) fun j r record own => ?_
    have := owners j r record
    rw [own, closed] at this
    cases this

/-! ## Holding less -/

/-- Every client keeps its rights and holds no more power and no more slots than it did. -/
structure Fewer (s t : State) : Prop where
  rights   : ∀ c, RightsKept (s.client c) (t.client c)
  held     : ∀ c, (t.client c).held ≤ (s.client c).held
  occupied : ∀ c, (t.client c).occupied ≤ (s.client c).occupied

theorem Fewer.refl (s : State) : Fewer s s := ⟨fun _ => .refl _, fun _ => le_rfl, fun _ => le_rfl⟩

theorem Fewer.trans (a : Fewer s t) (b : Fewer t u) : Fewer s u :=
  ⟨fun c => (a.rights c).trans (b.rights c), fun c => (b.held c).trans (a.held c),
    fun c => (b.occupied c).trans (a.occupied c)⟩

theorem HandOff.fewer (h : HandOff s t) : Fewer s t :=
  ⟨h.frame.rights, fun c => (h.holdings c).1.le, fun c => (h.holdings c).2.le⟩

theorem Fewer.of_same (same : ∀ c, t.client c = s.client c) : Fewer s t :=
  ⟨fun c => by rw [same c]; exact .refl _, fun c => by rw [same c], fun c => by rw [same c]⟩

/-- A steady change after which no held or slot figure is higher. -/
theorem Steady.fewer (steady : Steady s t) (held : ∀ c, (Figure.held c).of t ≤ (Figure.held c).of s)
    (occupied : ∀ c, (Figure.occupied c).of t ≤ (Figure.occupied c).of s) : Fewer s t := ⟨steady.rights, held, occupied⟩

theorem Fewer.rebudget (s : State) : Fewer s (Machine.rebudget s) := by
  have budgeted : Fewer s { s with budget := budgetNow s } := .of_same fun _ => rfl
  exact budgeted.trans (rebudget_handOff s).fewer

theorem Fewer.freeReporting (i : SlotId) (r : Record) (s : State) : Fewer s (Machine.freeReporting i r s) := by
  refine (Steady.freeReporting i r s).fewer (fun c => ?_) fun c => ?_ <;>
    (rw [Machine.freeReporting, figure_lastGrant, figure_freeRecord]; exact Nat.sub_le ..)

theorem Fewer.retireReporting (i : SlotId) (r : Record) (reason : Reason) (s : State) :
    Fewer s (Machine.retireReporting reason i r s) := by
  refine (Steady.retireReporting i r reason s).fewer (fun c => ?_) fun c => ?_ <;>
    (rw [Machine.retireReporting, figure_lastGrant, figure_retireRecord]; exact Nat.sub_le ..)

theorem Fewer.retireRecord (i : SlotId) (r : Record) (reason : Reason) (s : State) :
    Fewer s (Machine.retireRecord i r reason s) := by
  refine (Steady.retireRecord i r reason s).fewer (fun c => ?_) fun c => ?_ <;>
    (rw [figure_retireRecord]; exact Nat.sub_le ..)

theorem Fewer.freeRecord (i : SlotId) (r : Record) (s : State) : Fewer s (Machine.freeRecord i r s) := by
  refine (Steady.freeRecord i r s).fewer (fun c => ?_) fun c => ?_ <;> (rw [figure_freeRecord]; exact Nat.sub_le ..)

theorem Fewer.setKinds (i : SlotId) (r : Record) (k : KindSet) (s : State) : Fewer s (Machine.setKinds i r k s) :=
  (Steady.setKinds i r k s).fewer (fun _ => (figure_setKinds i r k s _).le) fun _ => (figure_setKinds i r k s _).le

/-- A live record's amount is lowered. -/
theorem Fewer.changeAmount (sums : SumsExact s) (record : (s.slot i).record = some r) (live : r.isLive = true)
    {a : Nat} (lower : a ≤ r.amount) : Fewer s (Machine.changeAmount i r a s) := by
  have held := sums.amount_le_held record live
  refine ⟨(Steady.changeAmount i r a s).rights, fun c => ?_, fun c => ?_⟩
  all_goals
    rw [changeAmount_client]
    split
  · next e =>
    subst e
    change (s.client r.owner).held - r.amount + a ≤ _
    omega
  · rfl
  · rfl
  · rfl

theorem Fewer.acceptNotice (sums : SumsExact s) (records : RecordsOk s) {n : Notice}
    (record : (s.slot i).record = some r) (noticed : r.notice? = some n) :
    Fewer s (Machine.acceptNotice i n.required s) := by
  obtain ⟨p, l, live⟩ := Record.phase_of_notice noticed
  have lower := ((records i r record).notice n noticed).1.le
  have slot : ((noticeEnded i r p l n s).slot i).record = some { r with phase := .live p l none } := by
    rw [noticeEnded_slot, if_pos rfl]
  have ended : Fewer s (noticeEnded i r p l n s) := .of_same fun _ => rfl
  rw [acceptNotice_eq record live]
  refine (ended.trans (.setKinds i { r with phase := .live p l none } { r.kinds with reduce := false } _)).trans ?_
  refine Fewer.changeAmount ((sums.noticeEnded record live).setKinds slot _) ?_ rfl lower
  rw [setKinds_slot, if_pos rfl]

theorem Fewer.recordsFreed (d : ClientId) (s : State) : Fewer s (Machine.recordsFreed d s) :=
  overRecords_keeps (P := Fewer s) (.refl s) fun i r t _ _ h => h.trans (.freeReporting i r t)

theorem Fewer.fault (n : ChannelId) (cause : Cause) (s : State) : Fewer s (Machine.fault n cause s) := by
  have entered : Fewer s (faultEntered n cause s) := by
    obtain ⟨-, e⟩ | ⟨-, e⟩ := faultEntered_cases n cause s <;> rw [e] <;> exact .of_same fun _ => rfl
  have retired : Fewer s (retireFaulted (openOrder (faultEnds n s) s) (faultEntered n cause s)) :=
    overRecords_keeps (P := Fewer s) entered fun i r t _ _ h => h.trans (.retireRecord i r _ t)
  have next : Fewer s (faultRetired n cause s) := retired.trans (.of_same fun _ => rfl)
  exact next.trans (fault_handOff n cause s).fewer

theorem Fewer.comeUp (n : ChannelId) (s : State) : Fewer s (Machine.comeUp n s) := by
  have marked (i : SlotId) (r : Record) (t : State) : Fewer t (markPowered i r t) := by
    unfold markPowered Machine.post
    split
    · next p l x live =>
      have set : Fewer t (t.setRecord i { r with phase := .live true l x }) := .of_same fun _ => rfl
      split
      · exact set.trans (.setKinds ..)
      · exact set
    · exact .refl t
  by_cases starting : (s.channel n).state = .starting
  · rw [comeUp_starting starting]
    refine Fewer.trans (t := overRecords markPowered _ _) ?_ (.of_same fun _ => rfl)
    exact overRecords_keeps (P := Fewer s) (Fewer.of_same fun _ => rfl) fun i r t _ _ h => h.trans (marked i r t)
  · rw [comeUp_other starting]
    exact .refl s

theorem ClientsOk.fewer (h : ClientsOk s) (fewer : Fewer s t) (owners : OwnersOpen s t) (sums : SumsExact t)
    (notices : NoticesExact t) : ClientsOk t :=
  h.of_rights fewer.rights (fun c session => ⟨(fewer.held c).trans (h.quota c session).1,
    (fewer.occupied c).trans (h.quota c session).2⟩) owners sums notices

theorem ClientsOk.congr (h : ClientsOk s) (same : ∀ c, t.client c = s.client c) : ClientsOk t :=
  ⟨fun c session => by rw [same c] at session ⊢; exact h.quota c session,
    fun c closed => by rw [same c] at closed ⊢; exact h.closed c closed⟩

theorem ClientsOk.setClient (h : ClientsOk s) (quota : o.isOpen = true → o.held ≤ o.quota ∧ o.occupied ≤ o.limit)
    (closed : o.isOpen = false → o = Client.closed) : ClientsOk (s.setClient d o) := by
  refine ⟨fun c session => ?_, fun c out => ?_⟩
  · rw [State.client_setClient] at session ⊢
    by_cases e : c = d
    · rw [if_pos e] at session ⊢
      exact quota session
    · rw [if_neg e] at session ⊢
      exact h.quota c session
  · rw [State.client_setClient] at out ⊢
    by_cases e : c = d
    · rw [if_pos e] at out ⊢
      exact closed out
    · rw [if_neg e] at out ⊢
      exact h.closed c out

/-! ## Every change -/

/-- A new record is charged to its client within its rights (R56). -/
theorem ClientsOk.charged (h : ClientsOk s) (can : CanRequest c a i s)
    (same : ∀ d, (t.client d).held = ((chargeClient c a.amount s).client d).held ∧
      (t.client d).occupied = ((chargeClient c a.amount s).client d).occupied) (d : ClientId)
    (session : (s.client d).isOpen = true) :
    (t.client d).held ≤ (s.client d).quota ∧ (t.client d).occupied ≤ (s.client d).limit := by
  rw [(same d).1, (same d).2, chargeClient_client]
  split
  · next e =>
    subst e
    exact ⟨can.passes.quota, can.passes.limit⟩
  · exact h.quota d session

theorem Move.keeps_clients (move : Move s t) (settings : SettingsOk s) (records : RecordsOk s) (sums : SumsExact s)
    (notices : NoticesExact s) (supervisor : SupervisorOk s) (h : ClientsOk s) : ClientsOk t := by
  have owners := h.ownersOpen sums
  have owners' : OwnersOpen s t := move.owners settings records owners
  have sums' := move.keeps_sums sums
  have notices' := move.keeps_notices notices
  have fewer (less : Fewer s t) : ClientsOk t := h.fewer less owners' sums' notices'
  have walked (u : State) (same : Fewer s u) (e : t = walk u) : ClientsOk t := by
    subst e
    exact fewer (same.trans (walk_handOff u).fewer)
  have rebudgeted (u : State) (same : Fewer s u) (e : t = rebudget u) : ClientsOk t := by
    subst e
    exact fewer (same.trans (.rebudget u))
  cases move with
  | aside same => exact h.congr same.sameRecords.client
  | @enter c a i can =>
    refine h.of_rights (Steady.admitRequest i c a s).rights (h.charged can fun d => ?_) owners' sums'
      notices'
    rw [admitRequest, enterLive_client]
    split <;> exact ⟨rfl, rfl⟩
  | @queue c a i can =>
    exact h.of_rights (Steady.queueRequest i c a s).rights (h.charged can fun d => ⟨rfl, rfl⟩)
      owners' sums' notices'
  | free record => exact fewer ((Fewer.freeReporting ..).trans (handOn_handOff ..).fewer)
  | retire reason record => exact fewer ((Fewer.retireReporting ..).trans (handOn_handOff ..).fewer)
  | shrink record active positive lower =>
    obtain ⟨p, l, live⟩ := Record.phase_of_active active
    exact fewer ((Fewer.changeAmount sums record (by rw [Record.isLive, live]) lower.le).trans (handOn_handOff ..).fewer)
  | @grow i r a record active higher most passes =>
    obtain ⟨p, l, live⟩ := Record.phase_of_active active
    have held := sums.amount_le_held record (by rw [Record.isLive, live])
    obtain ⟨-, quota, -⟩ := growth_passes passes
    refine h.of_rights (Steady.grow i r a s).rights (fun d session => ?_) owners' sums' notices'
    rw [show (Machine.grow i r a s).client d = (changeAmount i r a s).client d from rfl, changeAmount_client]
    split
    · next e =>
      subst e
      refine ⟨?_, (h.quota _ session).2⟩
      change (s.client r.owner).held - r.amount + a ≤ _
      omega
    · exact h.quota d session
  | accept record noticed => exact fewer ((Fewer.acceptNotice sums records record noticed).trans (handOn_handOff ..).fewer)
  | renew | extend => exact h.congr fun _ => rfl
  | deliver head record =>
    refine fewer ?_
    unfold Machine.deliver
    split
    · exact .freeRecord ..
    · exact .setKinds ..
  | @openSession d quota limit best attention plain closed =>
    have empty := h.closed d closed
    refine h.setClient (fun _ => ?_) nofun
    rw [empty]
    exact ⟨Nat.zero_le _, Nat.zero_le _⟩
  | @closeSession d plain =>
    have freed : ClientsOk (recordsFreed d s) := by
      refine h.fewer (.recordsFreed d s) (fun i r record => ?_) (sums.recordsFreed d) (notices.recordsFreed d)
      rw [recordsFreed_slot] at record
      split at record
      · cases record
      · exact owners i r record
    have closed : ClientsOk ((recordsFreed d s).setClient d Client.closed) := freed.setClient nofun fun _ => rfl
    have others : OwnersOpen ((recordsFreed d s).setClient d Client.closed)
        ((recordsFreed d s).setClient d Client.closed) := by
      intro i r record
      have other : r.owner ≠ d := recordsFreed_owner record
      rw [State.client_setClient, if_neg other]
      exact freed.ownersOpen (sums.recordsFreed d) i r record
    have handed := handOnChange_handOff (endings (recordsOf (ownedBy d s) s))
      ((recordsFreed d s).setClient d Client.closed)
    exact closed.fewer handed.fewer (handed.owners others) sums' notices'
  | @setting g walks =>
    have same : Fewer s { s with settings := g } := .of_same fun _ => rfl
    exact fewer (same.trans (handOn_handOff false walks { s with settings := g }).fewer)
  | @budget g => exact rebudgeted { s with settings := g } (.of_same fun _ => rfl) rfl
  | start config =>
    have closed := h.closed 0 (by rw [supervisor.session, config]; rfl)
    refine ClientsOk.setClient (s := { s with mode := .run }) (h.congr fun _ => rfl) (fun _ => ?_) nofun
    rw [closed]
    exact ⟨Nat.zero_le _, Nat.zero_le _⟩
  | hold => exact h.congr fun _ => rfl
  | resume => exact walked (resumed s) (.of_same fun _ => rfl) rfl
  | safe | restart =>
    refine ⟨fun c session => ?_, fun c _ => bulkClear_client s c⟩
    change ((bulkClear s).client c).isOpen = true at session
    rw [bulkClear_client] at session
    cases session
  | channel write => exact h.congr fun _ => rfl
  | @cool n => exact walked (cooledDown n s) (.of_same fun _ => rfl) rfl
  | fault cause => exact fewer (.fault ..)
  | comeUp => exact fewer (.comeUp ..)
  | settle => exact rebudgeted (selectTier _ s) (.of_same fun _ => rfl) rfl
  | lineChange v => exact h.congr (SameRecords.takeLineChange s v).client

/-! ## CONFIG and SAFE -/

/-- An empty table stays empty in the states that serve no request (R147). -/
theorem lasting_none (idle : s.mode.serves = false) : Lasting s fun _ _ => False := by
  refine { ok := fun h => h.elim, kinds := fun _ h => h, powered := fun _ h _ => h, retired := fun _ h => h,
           entered := fun _ h => h, ended := fun h _ => h, noticed := fun h _ _ _ _ => h,
           reamounted := fun h _ _ _ => h, renewed := fun h _ _ => h, extended := fun h _ _ _ _ => h,
           admitted := fun p can _ => ?_, queued := fun can _ => ?_ } <;> simp [can.serves] at idle

/-- A table without a record drives no channel. -/
theorem GrantsOk.stopped (h : GrantsOk s) (sums : SumsExact s) (free : ∀ i, (s.slot i).record = none) (n : ChannelId) :
    (s.channel n).state.drives = false := by
  refine Bool.eq_false_iff.2 fun drives => ?_
  have := h.driven n drives
  have none : (s.channel n).live = 0 :=
    sums.figure_zero (g := .live n) fun i r record => by rw [free i] at record; cases record
  omega

/-- A change keeps the controller state, or enters one that serves requests, or leaves no record. -/
theorem Move.mode (move : Move s t) : t.mode = s.mode ∨ t.mode.serves = true ∨ ∀ i, (t.slot i).record = none := by
  have cleared (i : SlotId) : ((bulkClear s).slot i).record = none := by rw [bulkClear_slot, Slot.cleared_record]
  cases move with
  | aside same => exact .inl same.mode
  | free => exact .inl ((Steady.freeReporting ..).trans (.handOn ..)).part.mode
  | retire => exact .inl ((Steady.retireReporting ..).trans (.handOn ..)).part.mode
  | shrink => exact .inl ((Steady.changeAmount ..).trans (.handOn ..)).part.mode
  | accept => exact .inl ((Steady.acceptNotice ..).trans (.handOn ..)).part.mode
  | deliver => exact .inl (Steady.deliver ..).part.mode
  | closeSession => exact .inl (Steady.closeEntry ..).part.mode
  | @setting g walks => exact .inl (Steady.handOn false walks { s with settings := g }).part.mode
  | @budget g => exact .inl (Steady.rebudget { s with settings := g }).part.mode
  | start | hold => exact .inr (.inl rfl)
  | resume => exact .inr (.inl (by rw [(walk_handOff (resumed s)).frame.part.mode]; rfl))
  | safe | restart => exact .inr (.inr cleared)
  | @cool n => exact .inl (walk_handOff (cooledDown n s)).frame.part.mode
  | fault => exact .inl (Steady.fault ..).part.mode
  | comeUp => exact .inl (Steady.comeUp ..).part.mode
  | settle => exact .inl (Steady.rebudget (selectTier _ s)).part.mode
  | lineChange v => exact .inl (takeLineChange_mode v s)
  | _ => exact .inl rfl

theorem Move.keeps_mode (move : Move s t) (settings : SettingsOk s) (sums : SumsExact t) (grants : GrantsOk t)
    (h : ModeOk s) : ModeOk t := by
  have free : t.mode.serves = false → ∀ i, (t.slot i).record = none := by
    intro idle i
    obtain same | serves | none := move.mode
    · have before : s.mode.serves = false := same ▸ idle
      have each := move.keeps_each (lasting_none before)
        ⟨rfl, (settingsOk_iff.1 settings).1, fun i r record => by simp [h.free before i] at record⟩
      exact Option.eq_none_iff_forall_ne_some.2 fun r record => each.record i r record
    · simp [serves] at idle
    · exact none i
  exact ⟨free, fun idle n => grants.stopped sums (free idle) n⟩

end Sys2Proof.Machine
end

section
/-! PROOF. O58, O59, O60: the withdrawals of an evaluation, the shed state it sets, and what a walk leaves waiting. -/

namespace Sys2Proof.Machine

/- One proof after another: side by side they need more memory than the check allows. -/
set_option Elab.async false

variable {s t u : State} {i j : SlotId} {r q : Record} {n : ChannelId} {l : List SlotId} {m : Notice}

/-! ## One withdrawal (R86) -/

theorem withdrawNotice_relief (record : (s.slot i).record = some r) (noticed : r.notice? = some m) :
    (withdrawNotice i s).relief = s.relief - reliefOf r.amount m := by
  obtain ⟨p, x, live⟩ := Record.phase_of_notice noticed
  rw [withdrawNotice, endNotice_noticed record live]
  exact figure_post i .withdrawn (noticeEnded i r p x m s) .relief

theorem withdrawNotice_shedList (record : (s.slot i).record = some r) (noticed : r.notice? = some m) :
    (withdrawNotice i s).shedList = without i s.shedList := by
  obtain ⟨p, x, live⟩ := Record.phase_of_notice noticed
  rw [withdrawNotice, endNotice_noticed record live, post_shedList]
  rfl

theorem withdrawNotice_committed (i : SlotId) (s : State) : (withdrawNotice i s).committed = s.committed :=
  (EvaluationKeeps.withdrawNotice i s).committed

theorem withdrawNotice_budget (record : (s.slot i).record = some r) (noticed : r.notice? = some m) :
    (withdrawNotice i s).budget = s.budget :=
  (withdrawNotice_handOff record noticed).frame.part.budget

/-- A withdrawal raises projected, by at most the relief that it takes back. -/
theorem withdrawNotice_projected (record : (s.slot i).record = some r) (noticed : r.notice? = some m) :
    projected s ≤ projected (withdrawNotice i s) ∧
      projected (withdrawNotice i s) ≤ projected s + reliefOf r.amount m := by
  unfold projected
  rw [withdrawNotice_relief record noticed, withdrawNotice_committed]
  omega

/-! ## The withdrawals of an evaluation (R85) -/

/-- What a chain of withdrawals over the list `l` leaves: `fits` says that none stands whose relief would still fit. -/
structure Withdrawn (l : List SlotId) (s t : State) : Prop where
  budget   : t.budget = s.budget
  rises    : projected s ≤ projected t
  within   : projected s ≤ s.budget → projected t ≤ t.budget
  sublist  : t.shedList.Sublist s.shedList
  others   : ∀ j, j ∉ l → t.slot j = s.slot j
  fits     : ∀ j r m, j ∈ l → j ∈ t.shedList → (t.slot j).record = some r → r.notice? = some m →
    t.budget < projected t + reliefOf r.amount m

theorem Withdrawn.nil (s : State) : Withdrawn [] s s where
  budget := rfl
  rises := le_rfl
  within := id
  sublist := .refl _
  others _ _ := rfl
  fits _ _ _ member := nomatch member

/-- A turn that withdraws nothing. -/
theorem Withdrawn.pass (out : i ∉ l) (h : Withdrawn l s t)
    (stays : ∀ r m, (s.slot i).record = some r → r.notice? = some m → s.budget < projected s + reliefOf r.amount m) :
    Withdrawn (i :: l) s t where
  budget := h.budget
  rises := h.rises
  within := h.within
  sublist := h.sublist
  others j outside := h.others j fun member => outside (List.mem_cons_of_mem i member)
  fits := by
    intro j r m member inside record noticed
    obtain rfl | member := List.mem_cons.1 member
    · rw [h.others j out] at record
      have := stays r m record noticed
      have := h.rises
      rw [h.budget]
      omega
    · exact h.fits j r m member inside record noticed

/-- A turn that withdraws the notice of its slot. -/
theorem Withdrawn.take (h : Withdrawn l (withdrawNotice i s) t) (record : (s.slot i).record = some r)
    (noticed : r.notice? = some m) (room : projected s + reliefOf r.amount m ≤ s.budget) : Withdrawn (i :: l) s t := by
  obtain ⟨rises, most⟩ := withdrawNotice_projected record noticed
  have budget := withdrawNotice_budget record noticed
  have shed := withdrawNotice_shedList record noticed
  refine ⟨h.budget.trans budget, rises.trans h.rises, fun _ => h.within (by omega), ?_, fun j outside => ?_, ?_⟩
  · exact h.sublist.trans (shed ▸ List.filter_sublist)
  · obtain ⟨other, out⟩ := not_or.1 (mt List.mem_cons.2 outside)
    rw [h.others j out, withdrawNotice_slot_other s other]
  · intro j q k member inside now still
    have here : j ≠ i := by
      have := h.sublist.subset inside
      rw [shed, mem_without] at this
      exact this.2
    exact h.fits j q k ((List.mem_cons.1 member).resolve_left here) inside now still

theorem withdrawFrom_withdrawn (nodup : l.Nodup) (s : State) : Withdrawn l s (withdrawFrom l s) := by
  induction l generalizing s with
  | nil => exact .nil s
  | cons i rest ih =>
    obtain ⟨out, nodup⟩ := List.nodup_cons.1 nodup
    unfold withdrawFrom
    split
    · next r record =>
      split
      · next m noticed =>
        split
        · next room => exact (ih nodup _).take record noticed room
        · next above =>
          refine (ih nodup s).pass out fun q k now still => ?_
          cases record.symm.trans now
          cases noticed.symm.trans still
          exact not_le.1 above
      · next quiet =>
        refine (ih nodup s).pass out fun q k now still => ?_
        cases record.symm.trans now
        rw [quiet] at still
        cases still
    · next free =>
      refine (ih nodup s).pass out fun q k now _ => ?_
      rw [free] at now
      cases now

theorem weigh_within (within : projected s ≤ s.budget) : weigh s = withdrawFrom s.shedList.reverse s :=
  if_neg (not_lt.2 within)

/-- Settles O58: each slot of the shed list is visited once, and what a visit leaves standing did not fit. -/
theorem everyNoticeThatFitsIsWithdrawn : Obligations.EveryNoticeThatFitsIsWithdrawn := by
  intro s nodup within t
  have withdrawn := withdrawFrom_withdrawn (List.nodup_reverse.2 nodup) s
  have evaluated := evaluate_eq_weigh s
  have shed : (evaluate s).shed = shedFound (weigh s) := congrArg State.shed evaluated
  rw [← shed, weigh_within within] at evaluated
  refine ⟨(withdrawn.within within).trans_eq withdrawn.budget, (EvaluationKeeps.withdrawFrom _ s).committed, ?_,
    withdrawn.sublist, evaluated⟩
  intro j r m inside record noticed
  rw [← withdrawn.budget]
  exact withdrawn.fits j r m (List.mem_reverse.2 (withdrawn.sublist.subset inside)) inside record noticed

/-! ## The shed state (R87) -/

theorem shedFound_idle : shedFound s = .idle ↔ s.shedList = [] ∧ s.committed ≤ s.budget := by
  unfold shedFound
  split
  · next some_shed => simp [some_shed]
  · next none =>
    rw [not_not] at none
    split <;> simp_all

theorem shedFound_shedding : shedFound s = .shedding ↔ s.shedList ≠ [] := by
  unfold shedFound
  split
  · next some_shed => simp [some_shed]
  · next none =>
    rw [not_not] at none
    split <;> simp [none]

theorem shedFound_strained : shedFound s = .strained ↔ s.shedList = [] ∧ s.budget < s.committed := by
  unfold shedFound
  split
  · next some_shed => simp [some_shed]
  · next none =>
    rw [not_not] at none
    split <;> simp_all

theorem evaluate_shed (s : State) : (evaluate s).shed = shedFound (evaluate s) := by
  have evaluated := evaluate_eq_weigh s
  rw [evaluated]
  rfl

/-- The flags after an evaluation: those of before, and the two events of R87. -/
theorem evaluate_flags (s : State) : (evaluate s).flags = s.flags
    ||| (if s.shed = .idle ∧ s.shedList.length < (evaluate s).shedList.length then 0x02 else 0)
    ||| (if (evaluate s).shed = .strained ∧ s.shed ≠ .strained then 0x04 else 0) := by
  have evaluated := evaluate_eq_weigh s
  have shedList : (evaluate s).shedList = (weigh s).shedList := (congrArg State.shedList evaluated :)
  have shed : (evaluate s).shed = shedFound (weigh s) := (congrArg State.shed evaluated :)
  rw [shedList, shed, ← weigh_flags s]
  unfold evaluate
  dsimp only
  split <;> split <;> simp [raise, EventFlag.mask, EventFlag.bit]

/-- Settles O59: the shed state is `shedFound`, and each event is raised by its own condition. -/
theorem evaluationSetsTheShedState : Obligations.EvaluationSetsTheShedState := by
  intro s t
  have found : t.shed = shedFound t := evaluate_shed s
  rw [found]
  exact ⟨shedFound_idle, shedFound_shedding, shedFound_strained, found ▸ evaluate_flags s⟩

/-! ## A walk (R68 to R70) -/

theorem admitQueued_budget (i : SlotId) (s : State) : (admitQueued i s).budget = s.budget := by
  unfold admitQueued
  split
  · next r record => exact (Steady.post i _ _).part.budget
  · rfl

theorem admitQueued_slot_same (record : (s.slot i).record = some r) (waiting : ((admitQueued i s).slot i).record = some q) :
    q.isQueued = false := by
  obtain ⟨q', now, -, active, -⟩ := admitQueued_wasAdmitted record
  cases waiting.symm.trans now
  obtain ⟨p, x, live⟩ := Record.phase_of_active active
  simp [Record.isQueued, live]

/-- Within the budget, an amount in the headroom of a class stays within the budget. -/
theorem within_of_headroom {cls : Fin 4} {amount : Nat} (fits : amount ≤ headroom cls s) (within : s.committed ≤ s.budget) :
    s.committed + amount ≤ s.budget := by
  unfold headroom at fits
  split at fits <;> omega

theorem walk_within (within : s.committed ≤ s.budget) : (walk s).committed ≤ (walk s).budget :=
  walk_keeps (P := fun t => t.committed ≤ t.budget) within fun i t taken within => by
    obtain ⟨r, record, -, -, -, fits⟩ := visit_take taken
    rw [admitQueued_committed record, admitQueued_budget]
    exact within_of_headroom fits within

/-- What admissions do to a channel: its state moves from OFF to STARTING alone, and its sum rises. -/
structure Fills (x y : Channel) : Prop where
  faulted : x.state = .faulted → y.state = .faulted
  ceiling : y.profile.ceiling = x.profile.ceiling
  sum     : x.sum ≤ y.sum

theorem Fills.refl (x : Channel) : Fills x x := ⟨id, rfl, le_rfl⟩

theorem Fills.trans {x y z : Channel} (a : Fills x y) (b : Fills y z) : Fills x z :=
  ⟨b.faulted ∘ a.faulted, b.ceiling.trans a.ceiling, a.sum.trans b.sum⟩

theorem Fills.gain (now : Tick) (amount : Nat) (x : Channel) : Fills x (x.gain now amount) := by
  refine ⟨fun faulted => ?_, by rw [(ChannelKept.gain ..).profile], ?_⟩
  · rw [Channel.gain_state, if_neg fun first => by simp [faulted] at first, faulted]
  · rw [(x.gain_counts now amount).1]
    exact Nat.le_add_right ..

theorem admitQueued_fills (i : SlotId) (s : State) (n : ChannelId) : Fills (s.channel n) ((admitQueued i s).channel n) := by
  cases record : (s.slot i).record with
  | none => simp only [admitQueued, record]; exact .refl _
  | some r =>
    rw [admitQueued_channel record]
    split
    · next e =>
      subst e
      have same : Fills (s.channel r.channel) (s.channel r.channel).unqueued := ⟨id, rfl, le_rfl⟩
      exact same.trans (.gain ..)
    · exact .refl _

theorem walkOver_fills (l : List SlotId) (s : State) (n : ChannelId) : Fills (s.channel n) ((walkOver l s).channel n) :=
  walkOver_keeps (P := fun t => Fills (s.channel n) (t.channel n)) (.refl _) fun i t _ fills =>
    fills.trans (admitQueued_fills i t n)

theorem walkOver_slot_other (l : List SlotId) (s : State) (out : j ∉ l) : (walkOver l s).slot j = s.slot j := by
  induction l generalizing s with
  | nil => rfl
  | cons i rest ih =>
    obtain ⟨other, out⟩ := not_or.1 (mt List.mem_cons.2 out)
    unfold walkOver
    split
    · exact ih s out
    · rfl
    · rw [ih _ out, admitQueued_slot_other s other]

/-- What a visit that passes over a waiting record has found. -/
theorem visit_passOver (record : (s.slot i).record = some r) (queued : r.isQueued = true) (passed : visit i s = .passOver) :
    (s.channel r.channel).state = .faulted ∨
      (s.channel r.channel).profile.ceiling < (s.channel r.channel).sum + r.amount := by
  unfold visit at passed
  simp only [record, queued, Bool.not_true, Bool.false_eq_true, if_false] at passed
  split at passed
  · next faulted => exact .inl faulted
  · split at passed
    · next full => exact .inr full
    · split at passed <;> cases passed

/-- What a visit that stops has found. -/
theorem visit_stop (stopped : visit i s = .stop) :
    ∃ r, (s.slot i).record = some r ∧ r.isQueued = true ∧ headroom r.cls s < r.amount := by
  unfold visit at stopped
  split at stopped
  · next r record =>
    refine ⟨r, record, ?_⟩
    dsimp only at stopped
    split at stopped
    · cases stopped
    · next queued =>
      split at stopped
      · cases stopped
      · split at stopped
        · cases stopped
        · split at stopped
          · next none => exact ⟨by simpa using queued, none⟩
          · cases stopped
  · cases stopped

/-- Why the record `r` of slot `i` still waits after a walk over the list `l` that has left `t`. -/
def StillWaits (l : List SlotId) (i : SlotId) (r : Record) (t : State) : Prop :=
  (t.channel r.channel).state = .faulted ∨
  (t.channel r.channel).profile.ceiling < (t.channel r.channel).sum + r.amount ∨
  ∃ j q, j ∈ l ∧ l.idxOf j ≤ l.idxOf i ∧ (t.slot j).record = some q ∧ q.isQueued = true ∧ headroom q.cls t < q.amount

theorem StillWaits.cons (h : StillWaits l i r t) (inside : i ∈ l) (out : j ∉ l) : StillWaits (j :: l) i r t := by
  obtain faulted | full | ⟨k, q, member, before, rest⟩ := h
  · exact .inl faulted
  · exact .inr (.inl full)
  · refine .inr (.inr ⟨k, q, List.mem_cons_of_mem j member, ?_, rest⟩)
    rw [List.idxOf_cons_ne _ (ne_of_mem_of_not_mem member out).symm,
      List.idxOf_cons_ne _ (ne_of_mem_of_not_mem inside out).symm]
    exact Nat.succ_le_succ before

theorem walkOver_stillWaits (nodup : l.Nodup) (s : State) (inside : i ∈ l)
    (record : ((walkOver l s).slot i).record = some r) (queued : r.isQueued = true) :
    StillWaits l i r (walkOver l s) := by
  induction l generalizing s with
  | nil => cases inside
  | cons j rest ih =>
    obtain ⟨out, nodup⟩ := List.nodup_cons.1 nodup
    unfold walkOver at record ⊢
    split at record
    · next passed =>
      obtain rfl | inside := List.mem_cons.1 inside
      · rw [walkOver_slot_other rest s out] at record
        have fills := walkOver_fills rest s r.channel
        obtain faulted | full := visit_passOver record queued passed
        · exact .inl (fills.faulted faulted)
        · refine .inr (.inl ?_)
          rw [fills.ceiling]
          have := fills.sum
          omega
      · exact (ih nodup s inside record).cons inside out
    · next stopped =>
      obtain ⟨q, found, waits, none⟩ := visit_stop stopped
      exact .inr (.inr ⟨j, q, List.mem_cons_self .., by rw [List.idxOf_cons_self]; exact Nat.zero_le _, found, waits, none⟩)
    · next taken =>
      obtain ⟨q, before, -⟩ := visit_take taken
      obtain rfl | inside := List.mem_cons.1 inside
      · rw [walkOver_slot_other rest _ out] at record
        simp [admitQueued_slot_same before record] at queued
      · exact (ih nodup _ inside record).cons inside out

/-- An admission stays within the ceiling of its channel (R69). -/
theorem walk_ceiling (n : ChannelId) (within : (s.channel n).sum ≤ (s.channel n).profile.ceiling) :
    ((walk s).channel n).sum ≤ ((walk s).channel n).profile.ceiling :=
  walk_keeps (P := fun t => (t.channel n).sum ≤ (t.channel n).profile.ceiling) within fun i t taken within => by
    obtain ⟨r, record, -, -, fits, -⟩ := visit_take taken
    rw [admitQueued_channel record]
    split
    · rw [(Channel.gain_counts ..).1, (ChannelKept.gain ..).profile]
      exact fits
    · exact within

/-- Settles O60: a walk leaves a record where it passes over it, or stops at it or before it. -/
theorem walkLeavesOnlyWhatCannotBeAdmitted : Obligations.WalkLeavesOnlyWhatCannotBeAdmitted := by
  intro s run idle nodup t
  have runs : t = walkOver s.waitQueue s := if_pos ⟨run, idle⟩
  refine ⟨fun i r inside record queued => ?_, walk_within, fun n => walk_ceiling n⟩
  rw [runs] at record ⊢
  exact walkOver_stillWaits nodup s inside record queued

end Sys2Proof.Machine
end

section
/-! PROOF. O15 and O8: every change of the part keeps what the manual says holds between claims, and the release of reset
leaves it so. The shed state (R81) is kept by the evaluation that a change calls for, or by a change that calls for none. -/

namespace Sys2Proof.Machine

/- One proof after another: side by side they need more memory than the check allows. -/
set_option Elab.async false

variable {s t u : State} {i j : SlotId} {r r' : Record} {n : ChannelId} {l : List SlotId}

/-! ## An evaluation leaves the shed state as R81 has it -/

theorem Record.phase_of_unnoticed (live : r.isLive = true) (quiet : r.notice? = none) :
    ∃ p x, r.phase = .live p x none := by
  obtain ⟨p, x, y, e⟩ := Record.isLive_iff.1 live
  rw [Record.notice?_live e] at quiet
  exact ⟨p, x, quiet ▸ e⟩

theorem Record.isActive_of_unnoticed (live : r.isLive = true) (quiet : r.notice? = none) : r.isActive = true := by
  obtain ⟨p, x, e⟩ := Record.phase_of_unnoticed live quiet
  simp [Record.isActive, e]

/-- With an empty shed list no record has a notice. -/
theorem CollectionsExact.quiet (h : CollectionsExact s) (empty : s.shedList = [])
    (record : (s.slot i).record = some r) : r.notice? = none := by
  have out : i ∉ s.shedList := by simp [empty]
  rw [h.shedList.exactly, record] at out
  simpa using out

theorem CollectionsExact.shedList_ne_nil (h : CollectionsExact s) :
    s.shedList ≠ [] ↔ ∃ i r, (s.slot i).record = some r ∧ r.notice?.isSome = true := by
  constructor
  · intro some_shed
    obtain ⟨i, member⟩ := List.exists_mem_of_ne_nil _ some_shed
    obtain ⟨r, record, noticed⟩ := Option.any_eq_true .. |>.1 ((h.shedList.exactly i).1 member)
    exact ⟨i, r, record, noticed⟩
  · rintro ⟨i, r, record, noticed⟩ empty
    simp [h.quiet empty record] at noticed

/-- Where no notice stands, nothing is relieved (R79). -/
theorem projected_of_quiet (sums : SumsExact s) (collections : CollectionsExact s) (empty : s.shedList = []) :
    projected s = s.committed := by
  have none : s.relief = 0 := sums.figure_zero (g := .relief) fun i r record => by
    simp [Figure.weight, Record.reliefAmount, collections.quiet empty record]
  rw [projected, none, Nat.sub_zero]

/-- An evaluation that finds the part STRAINED has found no record that it could have asked (R81, R83). -/
theorem evaluate_strained (sums : SumsExact s) (collections : CollectionsExact s)
    (empty : (evaluate s).shedList = []) (above : (evaluate s).budget < (evaluate s).committed)
    (record : ((evaluate s).slot i).record = some r) (live : r.isLive = true) : r.cls = 0 := by
  have left := projected_of_quiet sums.evaluate collections.evaluate empty
  have budget : (evaluate s).budget = s.budget := (evaluate_handOff s).frame.part.budget
  by_cases within : projected s ≤ s.budget
  · obtain ⟨within', -, -, -, same⟩ := everyNoticeThatFitsIsWithdrawn s collections.shedList.once within
    have projected_same : projected (evaluate s) = projected (withdrawFrom s.shedList.reverse s) := by rw [same]; rfl
    omega
  · obtain ⟨members, -, k, shedList, stops, -, -, -, -, -, -, others, same⟩ :=
      victimsAreChosenInOrder s collections.admission.once
    have same := same (not_le.1 within)
    have projected_same : projected (evaluate s) = projected (chooseVictims (candidates s) s) := by rw [same]; rfl
    have taken : s.shedList ++ (candidates s).take k = [] := by rw [← shedList, ← empty, same]
    obtain ⟨quiet, none⟩ := List.append_eq_nil_iff.1 taken
    have all : k = (candidates s).length := stops.resolve_right (by omega)
    rw [all, List.take_length] at none
    have slot : (evaluate s).slot i = s.slot i := by
      rw [same]
      exact others i (by simp [none])
    rw [slot] at record
    have inside : i ∈ s.admission := (collections.admission.exactly i).2 (by simp [record, live])
    refine not_not.1 fun asked => ?_
    have : i ∈ candidates s :=
      (members i).2 ⟨inside, r, record, Record.isActive_of_unnoticed live (collections.quiet quiet record), asked⟩
    simp [none] at this

theorem ShedOk.evaluate (sums : SumsExact s) (collections : CollectionsExact s) : ShedOk (Machine.evaluate s) := by
  have found := evaluate_shed s
  refine ⟨by rw [found]; exact shedFound_shedding, fun idle => ?_, fun strained => ?_⟩
  · rw [found] at idle
    exact (shedFound_idle.1 idle).2
  · rw [found] at strained
    obtain ⟨empty, above⟩ := shedFound_strained.1 strained
    exact ⟨above, fun i r record live => evaluate_strained sums collections empty above record live⟩

/-! ## Changes that call for no evaluation -/

theorem admitQueued_shed (i : SlotId) (s : State) :
    (admitQueued i s).shed = s.shed ∧ (admitQueued i s).shedList = s.shedList := by
  cases record : (s.slot i).record with
  | none => simp only [admitQueued, record, and_self]
  | some r =>
    obtain ⟨kind, e⟩ := admitQueued_eq record
    rw [e]
    unfold post
    split <;> exact ⟨rfl, rfl⟩

theorem walk_shed (s : State) : (walk s).shed = s.shed ∧ (walk s).shedList = s.shedList :=
  walk_keeps (P := fun t => t.shed = s.shed ∧ t.shedList = s.shedList) ⟨rfl, rfl⟩ fun i t _ ⟨shed, shedList⟩ =>
    ⟨(admitQueued_shed i t).1.trans shed, (admitQueued_shed i t).2.trans shedList⟩

theorem ShedOk.walk (h : ShedOk s) : ShedOk (Machine.walk s) := by
  by_cases runs : s.mode = .run ∧ s.shed = .idle
  · obtain ⟨shed, shedList⟩ := walk_shed s
    refine ⟨by rw [shed, shedList]; exact h.shedding, fun _ => walk_within (h.idle runs.2), fun strained => ?_⟩
    rw [shed, runs.2] at strained
    cases strained
  · rwa [Machine.walk, if_neg runs]

theorem ShedOk.handOn (sums : SumsExact s) (collections : CollectionsExact s) (w : Bool) :
    ShedOk (Machine.handOn true w s) := by
  obtain e | e := handOn_cases true w s <;> rw [e]
  · exact .evaluate sums collections
  · exact ShedOk.walk (.evaluate sums collections)

theorem ShedOk.handOn_walk (h : ShedOk s) (w : Bool) : ShedOk (Machine.handOn false w s) := by
  obtain e | e := handOn_cases false w s <;> rw [e]
  · exact h
  · exact h.walk

/-- A change calls for an evaluation, or it is calm: it resolves no notice, and leaves the committed total where the part
is STRAINED (R20). -/
theorem ShedOk.handOnChange (sums : SumsExact s) (collections : CollectionsExact s) (k : Change)
    (calm : k.resolved = false → (s.shed = .strained → k.fell = false) → ShedOk s) : ShedOk (Machine.handOnChange k s) := by
  unfold Machine.handOnChange
  cases asked : k.resolved || (k.fell && decide (s.shed = .strained)) with
  | true => exact .handOn sums collections _
  | false =>
    refine ShedOk.handOn_walk (calm ?_ fun strained => ?_) _
    · exact (Bool.or_eq_false_iff.1 asked).1
    · simpa [strained] using (Bool.or_eq_false_iff.1 asked).2

theorem ShedOk.rebudget (h : ShedOk s) (sums : SumsExact s) (collections : CollectionsExact s) :
    ShedOk (Machine.rebudget s) := by
  obtain ⟨-, e⟩ | ⟨-, e⟩ := rebudget_cases s <;> rw [e]
  · exact h
  · exact ShedOk.handOn (s := { s with budget := budgetNow s }) (sums.same (.budget s _)) (collections.same (.budget s _)) _

/-- Every live record of `t` was live in `s`, in the same class. -/
def ClassFrom (s t : State) : Prop :=
  ∀ i r', (t.slot i).record = some r' → r'.isLive = true → ∃ r, (s.slot i).record = some r ∧ r.isLive = true ∧ r'.cls = r.cls

theorem LiveFrom.classFrom (h : LiveFrom s t) : ClassFrom s t := by
  intro i r' record live
  obtain ⟨r, before, same⟩ := h i r' record live
  exact ⟨r, before, same.live, same.cls⟩

/-- The shed state, the shed list, the budget and the committed total stay, and the live records keep their classes. -/
theorem ShedOk.keep (h : ShedOk s) (shed : t.shed = s.shed) (shedList : t.shedList = s.shedList)
    (committed : t.committed = s.committed) (budget : t.budget = s.budget) (from_s : ClassFrom s t) : ShedOk t := by
  refine ⟨by rw [shed, shedList]; exact h.shedding, fun idle => ?_, fun strained => ?_⟩
  · rw [committed, budget]
    exact h.idle (shed ▸ idle)
  · obtain ⟨above, classes⟩ := h.strained (shed ▸ strained)
    refine ⟨by rwa [committed, budget], fun i r' record live => ?_⟩
    obtain ⟨r, before, before_live, cls⟩ := from_s i r' record live
    rw [cls, classes i r before before_live]

theorem ShedOk.congr (h : ShedOk s) (shed : t.shed = s.shed) (shedList : t.shedList = s.shedList)
    (committed : t.committed = s.committed) (budget : t.budget = s.budget) (from_s : LiveFrom s t) : ShedOk t :=
  h.keep shed shedList committed budget from_s.classFrom

theorem ShedOk.same (h : ShedOk s) (same : SameRecords s t) (shed : t.shed = s.shed) (budget : t.budget = s.budget) :
    ShedOk t :=
  h.congr shed same.shedList same.committed budget (.of_same fun j => by rw [same.slot])

/-- The committed total moves within the budget while the part is IDLE, or falls while it is not STRAINED. -/
theorem ShedOk.moved (h : ShedOk s) (shed : t.shed = s.shed) (shedList : t.shedList = s.shedList)
    (unstrained : s.shed ≠ .strained) (within : s.shed = .idle → t.committed ≤ t.budget) : ShedOk t :=
  ⟨by rw [shed, shedList]; exact h.shedding, fun idle => within (shed ▸ idle),
    fun strained => absurd (shed ▸ strained) unstrained⟩

/-- Between `s` and `t` the record of a slot stays, or it ends: it has no notice, it is not live where the part is
STRAINED, and what takes its place is not live. -/
def StaysOrEnds (s t : State) (j : SlotId) : Prop :=
  (t.slot j).record = (s.slot j).record ∨
  ∃ r, (s.slot j).record = some r ∧ r.notice? = none ∧ (s.shed = .strained → r.isLive = false) ∧
    ∀ r', (t.slot j).record = some r' → r'.isLive = false

theorem Record.not_noticed_of_idle (idle : r.isLive = false) : r.notice? = none := by
  cases noticed : r.notice? with
  | none => rfl
  | some n =>
    obtain ⟨p, x, e⟩ := Record.phase_of_notice noticed
    simp [Record.isLive, e] at idle

theorem share_le_of_staysOrEnds (h : StaysOrEnds s t j) :
    Figure.share (t.slot j).record .committed ≤ Figure.share (s.slot j).record .committed ∧
      (s.shed = .strained → Figure.share (t.slot j).record .committed = Figure.share (s.slot j).record .committed) := by
  obtain same | ⟨r, record, -, idle, ended⟩ := h
  · rw [same]
    exact ⟨le_rfl, fun _ => rfl⟩
  · have zero : Figure.share (t.slot j).record .committed = 0 := by
      cases now : (t.slot j).record with
      | none => rfl
      | some r' => simp [Figure.share, Figure.weight, Record.liveAmount, ended r' now]
    rw [zero, record]
    refine ⟨Nat.zero_le _, fun strained => ?_⟩
    simp [Figure.share, Figure.weight, Record.liveAmount, idle strained]

/-- Records that end without a notice, and none of them live while the part is STRAINED, call for no evaluation. -/
theorem ShedOk.ended (h : ShedOk s) (sums : SumsExact s) (collections : CollectionsExact s) (sums' : SumsExact t)
    (collections' : CollectionsExact t) (shed : t.shed = s.shed) (budget : t.budget = s.budget)
    (ends : ∀ j, StaysOrEnds s t j) : ShedOk t := by
  have lists : t.shedList ≠ [] ↔ s.shedList ≠ [] := by
    rw [collections.shedList_ne_nil, collections'.shedList_ne_nil]
    refine exists_congr fun j => exists_congr fun r => ?_
    obtain same | ⟨q, record, quiet, -, ended⟩ := ends j
    · rw [same]
    · refine iff_of_false ?_ ?_
      · rintro ⟨now, noticed⟩
        simp [Record.not_noticed_of_idle (ended r now)] at noticed
      · rintro ⟨before, noticed⟩
        cases record.symm.trans before
        simp [quiet] at noticed
  have committed : t.committed = ∑ j, Figure.share (t.slot j).record .committed := by
    have exact_ := sums'.committed
    rwa [sumOver_eq] at exact_
  have committed_s : s.committed = ∑ j, Figure.share (s.slot j).record .committed := by
    have exact_ := sums.committed
    rwa [sumOver_eq] at exact_
  refine ⟨by rw [shed, lists]; exact h.shedding, fun idle => ?_, fun strained => ?_⟩
  · have before := h.idle (shed ▸ idle)
    have falls := Finset.sum_le_sum fun j (_ : j ∈ Finset.univ) => (share_le_of_staysOrEnds (ends j)).1
    omega
  · rw [shed] at strained
    obtain ⟨above, classes⟩ := h.strained strained
    have stays := Finset.sum_congr rfl fun j (_ : j ∈ Finset.univ) => (share_le_of_staysOrEnds (ends j)).2 strained
    refine ⟨by omega, fun i r record live => ?_⟩
    obtain same | ⟨q, before, -, -, ended⟩ := ends i
    · exact classes i r (same ▸ record) live
    · simp [ended r record] at live

/-! ## What leaves the shed state itself alone -/

theorem lastGrant_shed (r : Record) (s : State) : (lastGrant r s).shed = s.shed := by
  rw [lastGrant_eq]
  rfl

theorem detach_shed (i : SlotId) (r : Record) (s : State) : (detach i r s).shed = s.shed := by
  unfold detach
  split <;> rfl

theorem post_shed (i : SlotId) (kind : NoticeKind) (s : State) : (post i kind s).shed = s.shed := by
  unfold post
  split <;> rfl

theorem freeReporting_shed (i : SlotId) (r : Record) (s : State) : (freeReporting i r s).shed = s.shed :=
  (lastGrant_shed r _).trans (detach_shed i r s)

theorem retireRecord_shed (i : SlotId) (r : Record) (reason : Reason) (s : State) :
    (retireRecord i r reason s).shed = s.shed := (post_shed ..).trans (detach_shed i r s)

theorem recordsFreed_shed (d : ClientId) (s : State) : (recordsFreed d s).shed = s.shed :=
  overRecords_keeps (P := fun t => t.shed = s.shed) rfl fun i r t _ _ same => (freeReporting_shed i r t).trans same

theorem faultRetired_shed (n : ChannelId) (cause : Cause) (s : State) : (faultRetired n cause s).shed = s.shed := by
  have entered : (faultEntered n cause s).shed = s.shed := by
    obtain ⟨-, e⟩ | ⟨-, e⟩ := faultEntered_cases n cause s <;> rw [e] <;> rfl
  exact overRecords_keeps (P := fun t => t.shed = s.shed) entered fun i r t _ _ same =>
    (retireRecord_shed i r _ t).trans same

/-- The budget is no part of what a fault writes before its hand-offs. -/
theorem faultRetired_budget (n : ChannelId) (cause : Cause) (s : State) : (faultRetired n cause s).budget = s.budget :=
  (fault_handOff n cause s).frame.part.budget.symm.trans (Steady.fault n cause s).part.budget

theorem comeUp_lists (n : ChannelId) (s : State) : (comeUp n s).shed = s.shed ∧ (comeUp n s).shedList = s.shedList ∧
    (comeUp n s).committed = s.committed := by
  by_cases starting : (s.channel n).state = .starting
  · rw [comeUp_starting starting]
    refine overRecords_keeps (P := fun t => t.shed = s.shed ∧ t.shedList = s.shedList ∧ t.committed = s.committed)
      ⟨rfl, rfl, rfl⟩ fun i r t _ _ same => ?_
    unfold markPowered post
    split
    · split <;> exact same
    · exact same
  · rw [comeUp_other starting]
    exact ⟨rfl, rfl, rfl⟩

theorem comeUp_classFrom (n : ChannelId) (s : State) : ClassFrom s (comeUp n s) := by
  by_cases starting : (s.channel n).state = .starting
  · intro i r' record live
    rw [comeUp_slot starting] at record
    cases before : (s.slot i).record with
    | none => simp [before] at record
    | some r =>
      simp only [before] at record
      split at record
      · next mine =>
        cases record
        exact ⟨r, rfl, mine.2, (Record.poweredUp_same r).2⟩
      · exact ⟨r', before.symm.trans record, live, rfl⟩
  · rw [comeUp_other starting]
    exact (LiveFrom.refl s).classFrom

/-- What the end of a record calls for, read back: no notice was resolved, and nothing live ended. -/
theorem Record.quiet_of_ending (calm : r.ending.resolved = false) : r.notice? = none := by
  cases e : r.phase <;> simp_all [Record.ending, Record.notice?]

theorem Record.idle_of_ending (calm : r.ending.fell = false) : r.isLive = false := by
  cases e : r.phase <;> simp_all [Record.ending, Record.isLive]

theorem ending_of_endings {k : Change} (calm : (endings (recordsOf l s)) = k) (member : j ∈ l)
    (record : (s.slot j).record = some r) :
    (k.resolved = false → r.ending.resolved = false) ∧ (k.fell = false → r.ending.fell = false) := by
  have inside : r ∈ recordsOf l s := List.mem_filterMap.2 ⟨j, member, record⟩
  subst calm
  exact ⟨fun none => by simpa using List.any_eq_false.1 none r inside,
    fun none => by simpa using List.any_eq_false.1 none r inside⟩

/-! ## Every change -/

/-- What holds between claims, but for the attention lines, which are driven at the end of each claim. -/
structure Core (s : State) : Prop where
  sums        : SumsExact s
  collections : CollectionsExact s
  notices     : NoticesExact s
  budgetUnit  : BudgetUnitOk s
  channels    : ChannelsOk s
  supervisor  : SupervisorOk s
  settings    : SettingsOk s
  records     : RecordsOk s
  shed        : ShedOk s
  grants      : GrantsOk s
  clients     : ClientsOk s
  mode        : ModeOk s
  ports       : PortsOk s

/-- One record leaves, with the hand-offs that its end calls for. -/
theorem ShedOk.left (h : ShedOk s) (sums : SumsExact s) (collections : CollectionsExact s) (sums' : SumsExact u)
    (collections' : CollectionsExact u) (record : (s.slot i).record = some r) (shed : u.shed = s.shed)
    (budget : u.budget = s.budget) (others : ∀ j, j ≠ i → (u.slot j).record = (s.slot j).record)
    (gone : ∀ r', (u.slot i).record = some r' → r'.isLive = false) : ShedOk (Machine.handOnChange r.ending u) := by
  refine .handOnChange sums' collections' _ fun quiet idle =>
    h.ended sums collections sums' collections' shed budget fun j => ?_
  by_cases other : j = i
  · subst other
    exact .inr ⟨r, record, Record.quiet_of_ending quiet, fun strained =>
      Record.idle_of_ending (idle (shed.trans strained)), gone⟩
  · exact .inl (others j other)

/-- Several records leave, with the hand-offs that their ends call for together. -/
theorem ShedOk.allLeft (h : ShedOk s) (sums : SumsExact s) (collections : CollectionsExact s) (sums' : SumsExact u)
    (collections' : CollectionsExact u) (shed : u.shed = s.shed) (budget : u.budget = s.budget)
    (others : ∀ j, j ∉ l → (u.slot j).record = (s.slot j).record)
    (gone : ∀ j r', j ∈ l → (u.slot j).record = some r' → r'.isLive = false)
    (members : ∀ j, j ∈ l → ∃ r, (s.slot j).record = some r) :
    ShedOk (Machine.handOnChange (endings (recordsOf l s)) u) := by
  refine .handOnChange sums' collections' _ fun quiet idle =>
    h.ended sums collections sums' collections' shed budget fun j => ?_
  by_cases member : j ∈ l
  · obtain ⟨r, record⟩ := members j member
    obtain ⟨resolved, fell⟩ := ending_of_endings rfl member record
    exact .inr ⟨r, record, Record.quiet_of_ending (resolved quiet), fun strained =>
      Record.idle_of_ending (fell (idle (shed.trans strained))), fun r' => gone j r' member⟩
  · exact .inl (others j member)

theorem Move.keeps_shed (move : Move s t) (core : Core s) : ShedOk t := by
  have h := core.shed
  have sums := core.sums
  have collections := core.collections
  cases move with
  | aside same => exact h.same same.sameRecords same.shed same.budget
  | @enter c a i can fits =>
    refine h.moved rfl rfl (by rw [fits.idle]; nofun) fun idle => ?_
    exact within_of_headroom fits.room (h.idle idle)
  | @queue c a i can =>
    refine h.congr rfl rfl rfl rfl (.write i (fun j other => ?_) fun q now live => ?_)
    · rw [queueRequest_slot, if_neg other]
    · rw [queueRequest_slot, if_pos rfl] at now
      cases now
      cases live
  | @free i r record =>
    refine h.left sums collections (sums.freeReporting record) (collections.freeReporting record) record
      (freeReporting_shed i r s) (Steady.freeReporting i r s).part.budget (fun j other => ?_) fun q now => ?_
    · rw [freeReporting_slot, if_neg other]
    · rw [freeReporting_slot, if_pos rfl] at now
      cases now
  | @retire i r reason record =>
    refine h.left sums collections (sums.retireReporting record reason) (collections.retireReporting record reason) record
      ((lastGrant_shed r _).trans (retireRecord_shed i r reason s)) (Steady.retireReporting i r reason s).part.budget
      (fun j other => ?_) fun q now => ?_
    · rw [retireReporting, lastGrant_slot, retireRecord_slot_other r reason s other]
    · rw [retireReporting, lastGrant_slot, retireRecord_slot_same] at now
      cases now
      rfl
  | @shrink i r a record active positive lower =>
    obtain ⟨p, x, live⟩ := Record.phase_of_active active
    have held := sums.weight_le record .committed
    simp only [Figure.of, Figure.weight, Record.liveAmount, Record.isLive, live, if_true] at held
    refine .handOnChange (sums.changeAmount record live a) (collections.changeAmount record a) _ fun _ idle =>
      h.moved rfl rfl (fun strained => Bool.noConfusion (idle strained)) fun within => ?_
    have := h.idle within
    change s.committed - r.amount + a ≤ s.budget
    omega
  | @grow i r a record active higher most passes =>
    obtain ⟨p, x, live⟩ := Record.phase_of_active active
    obtain ⟨-, -, -, idle, -, -, room⟩ := growth_passes passes
    have held := sums.weight_le record .committed
    simp only [Figure.of, Figure.weight, Record.liveAmount, Record.isLive, live, if_true] at held
    refine h.moved rfl rfl (by rw [idle]; nofun) fun within => ?_
    have := within_of_headroom room (h.idle within)
    change s.committed - r.amount + a ≤ s.budget
    omega
  | @accept i r n record noticed =>
    exact .handOnChange (sums.acceptNotice record noticed _) (collections.acceptNotice record noticed _) _ nofun
  | renew record live | extend record live =>
    exact h.congr rfl rfl rfl rfl (.setRecord record fun _ => .of_live live rfl)
  | @deliver i r c rest head record =>
    unfold Machine.deliver
    split
    · next retired =>
      have tombstone : r.isRetired = true := (core.notices.retired i r record).2 retired
      have idle : r.isLive = false := by
        unfold Record.isRetired at tombstone
        unfold Record.isLive
        split <;> simp_all
      refine h.ended sums collections (sums.freeRecord record) (collections.freeRecord record) (detach_shed i r s)
        (Steady.freeRecord i r s).part.budget fun j => ?_
      by_cases other : j = i
      · subst other
        exact .inr ⟨r, record, Record.not_noticed_of_idle idle, fun _ => idle, fun q now => by
          rw [freeRecord_slot, if_pos rfl] at now; cases now⟩
      · exact .inl (by rw [freeRecord_slot, if_neg other])
    · exact h.congr rfl rfl rfl rfl (.setKinds record _)
  | openSession => exact h.congr rfl rfl rfl rfl (.of_same fun _ => rfl)
  | @closeSession d =>
    have none : ∀ j r, ((recordsFreed d s).slot j).record = some r → r.owner ≠ d := fun _ _ => recordsFreed_owner
    rw [closeEntry_eq]
    refine h.allLeft sums collections ((sums.recordsFreed d).setClosed none) ((collections.recordsFreed d).setClient d _)
      (recordsFreed_shed d s) (Steady.recordsFreed d s).part.budget (fun j out => ?_) (fun j q member now => ?_)
      fun j member => ?_
    · change ((recordsFreed d s).slot j).record = _
      rw [recordsFreed_slot, if_neg out]
    · change ((recordsFreed d s).slot j).record = _ at now
      rw [recordsFreed_slot, if_pos member] at now
      cases now
    · obtain ⟨r, record, -⟩ := mem_ownedBy.1 member
      exact ⟨r, record⟩
  | @setting g walks => exact ShedOk.handOn_walk (s := { s with settings := g }) (h.same (.setting s _) rfl rfl) _
  | @budget g =>
    exact ShedOk.rebudget (s := { s with settings := g }) (h.same (.setting s _) rfl rfl) (sums.same (.setting s _))
      (collections.same (.setting s _))
  | start => exact h.congr rfl rfl rfl rfl (.of_same fun _ => rfl)
  | hold => exact h.same (.mode s _) rfl rfl
  | resume => exact ShedOk.walk (s := resumed s) (h.same (.mode s _) rfl rfl)
  | safe | restart => exact ⟨by simp [safeEntry, restartPart, bulkClear], fun _ => Nat.zero_le _, nofun⟩
  | channel write => exact h.congr rfl rfl rfl rfl (.of_same fun _ => rfl)
  | @cool n => exact ShedOk.walk (s := cooledDown n s) (h.congr rfl rfl rfl rfl (.of_same fun _ => rfl))
  | @fault n cause =>
    rw [fault_eq]
    refine h.allLeft sums collections (sums.faultRetired n cause) (collections.faultRetired n cause)
      (faultRetired_shed n cause s) (faultRetired_budget n cause s) (fun j out => ?_) (fun j q member now => ?_)
      fun j member => ?_
    · rw [(faultRetired_other cause out).1]
    · obtain ⟨r, record, -⟩ := mem_faultEnds.1 member
      rw [faultRetired_slot cause member record] at now
      cases now
      rfl
    · obtain ⟨r, record, -⟩ := mem_faultEnds.1 member
      exact ⟨r, record⟩
  | @comeUp n starting =>
    obtain ⟨shed, shedList, committed⟩ := comeUp_lists n s
    exact h.keep shed shedList committed (Steady.comeUp n s).part.budget (comeUp_classFrom n s)
  | settle =>
    exact ShedOk.rebudget (s := selectTier _ s) (h.same (.selectTier s _) rfl rfl) (sums.same (.selectTier s _))
      (collections.same (.selectTier s _))
  | lineChange v =>
    refine h.same (.takeLineChange s v) ?_ ?_ <;> by_cases same : v = s.selected
    · rw [takeLineChange_selected same]
    · rw [takeLineChange_other same]
    · rw [takeLineChange_selected same]
    · rw [takeLineChange_other same]

theorem Move.keeps_core (move : Move s t) (h : Core s) : Core t := by
  have sums := move.keeps_sums h.sums
  have grants := move.keeps_grants h.sums h.notices h.records h.grants
  exact {
    sums := sums
    collections := move.keeps_collections h.collections
    notices := move.keeps_notices h.notices
    budgetUnit := move.keeps_budgetUnit h.budgetUnit
    channels := move.keeps_channels h.channels
    supervisor := move.keeps_supervisor h.supervisor
    settings := move.keeps_settings h.settings
    records := move.keeps_records h.settings h.records
    shed := move.keeps_shed h
    grants := grants
    clients := move.keeps_clients h.settings h.records h.sums h.notices h.supervisor h.clients
    mode := move.keeps_mode h.settings sums grants h.mode
    ports := move.keeps_ports h.ports }

/-- What holds between claims is no matter of the counter, the sender's queue and the attention lines. -/
theorem Core.congr (h : Core s) (records : SameRecords s t) (settings : t.settings = s.settings) (mode : t.mode = s.mode)
    (shed : t.shed = s.shed) (budget : t.budget = s.budget) (selected : t.selected = s.selected)
    (pendingTier : t.pendingTier = s.pendingTier) (settleTimer : t.settleTimer = s.settleTimer) (ports : SamePorts s t) :
    Core t where
  sums := h.sums.same records
  collections := h.collections.same records
  notices := h.notices.same records
  budgetUnit := ⟨by simp only [budget, settings, selected, h.budgetUnit.budget],
    by rw [pendingTier, settleTimer]; exact h.budgetUnit.settle, by rw [pendingTier, selected]; exact h.budgetUnit.differs⟩
  channels := h.channels.same records
  supervisor := h.supervisor.congr mode (by rw [records.client]; exact .refl _)
  settings := h.settings.congr settings fun n => by rw [records.channel]
  records := fun i r record => h.records i r (by rwa [records.slot] at record)
  shed := h.shed.same records shed budget
  grants := h.grants.same records
  clients := h.clients.congr records.client
  mode := ⟨fun idle i => by rw [records.slot]; exact h.mode.free (mode ▸ idle) i,
    fun idle n => by rw [records.channel]; exact h.mode.stopped (mode ▸ idle) n⟩
  ports := h.ports.same ports

theorem Core.pending (h : Core s) (l : List Instr) : Core { s with pending := l } :=
  h.congr (.pending s l) rfl rfl rfl rfl rfl rfl rfl ⟨rfl, rfl, rfl⟩

theorem Core.advance (h : Core s) : Core (driveLines { s with tick := s.tick + 1 }) :=
  h.congr (.advance s) rfl rfl rfl rfl rfl rfl rfl ⟨rfl, rfl, rfl⟩

/-! ## The release of reset -/

/-- The table, the lists, the sums and the clients as a release of reset leaves them. -/
structure Blank (s : State) : Prop where
  free       : ∀ i, (s.slot i).record = none
  admission  : s.admission = []
  waitQueue  : s.waitQueue = []
  shedList   : s.shedList = []
  committed  : s.committed = 0
  relief     : s.relief = 0
  shed       : s.shed = .idle
  mode       : s.mode = .config
  client     : ∀ c, s.client c = Client.closed
  channel    : ∀ n, ∃ pg fltN, s.channel n = Channel.reset pg fltN

theorem blank_reset : Blank State.reset := by
  constructor
  case free => intro i; simp [State.slot, State.reset]
  case client => exact client_reset
  case channel => intro n; exact ⟨false, true, by simp [State.channel, State.reset]⟩
  all_goals rfl

theorem blank_atRelease (pins : Pins) (s : State) : Blank (atRelease pins s) := by
  constructor
  case free => intro i; rw [State.slot_atRelease]
  case client => exact State.client_atRelease pins s
  case channel => intro n; exact ⟨_, _, State.channel_atRelease pins s n⟩
  all_goals rfl

theorem ChannelOk.reset (pg fltN : Bool) : ChannelOk (Channel.reset pg fltN) := ⟨rfl, rfl, rfl, Nat.zero_le _⟩

theorem GrantChannel.reset (pg fltN : Bool) : GrantChannel (Channel.reset pg fltN) :=
  ⟨nofun, fun _ => rfl, fun _ => rfl, Nat.zero_le _⟩

/-- A blank part has everything that holds between claims, with its settings, budget unit and ports in form. -/
theorem Core.of_blank (h : Blank s) (budgetUnit : BudgetUnitOk s) (settings : s.settings.Within) (ports : PortsOk s) :
    Core s where
  sums := by
    refine .of_empty h.free fun g => ?_
    cases g with
    | committed => exact h.committed
    | relief => exact h.relief
    | sum n | live n | queued n =>
      obtain ⟨pg, fltN, e⟩ := h.channel n
      simp only [Figure.of, e, Channel.reset]
    | client c | held c | occupied c => simp only [Figure.of, h.client, Client.closed]
  collections := .of_empty h.free h.admission h.waitQueue h.shedList
  notices := .of_empty h.free fun c => by rw [h.client]; rfl
  budgetUnit := budgetUnit
  channels := channelsOk_iff.2 fun n => by
    obtain ⟨pg, fltN, e⟩ := h.channel n
    rw [e]
    exact .reset pg fltN
  supervisor := .of_closed (by rw [h.mode]; rfl) (h.client 0)
  settings := settingsOk_iff.2 ⟨settings, fun n => by
    obtain ⟨pg, fltN, e⟩ := h.channel n
    rw [e]
    exact profileOk_reset⟩
  records := fun i r record => by simp [h.free i] at record
  shed := ⟨by simp [h.shed, h.shedList], fun _ => by rw [h.committed]; exact Nat.zero_le _, by simp [h.shed]⟩
  grants := grantsOk_iff.2 ⟨fun n => by
    obtain ⟨pg, fltN, e⟩ := h.channel n
    rw [e]
    exact .reset pg fltN, fun i r record => by simp [h.free i] at record⟩
  clients := ⟨fun c session => by simp [h.client c, Client.closed] at session, fun c _ => h.client c⟩
  mode := ⟨fun _ => h.free, fun _ n => by
    obtain ⟨pg, fltN, e⟩ := h.channel n
    rw [e]
    rfl⟩
  ports := ports

theorem Core.atRelease (pins : Pins) (s : State) : Core (Machine.atRelease pins s) :=
  .of_blank (blank_atRelease pins s) (.atRelease pins s) Settings.within_reset portsOk_reset

/-! ## O15 and O8 -/

theorem Sound.core (h : Sound s) : Core s :=
  ⟨h.sums, h.collections, h.notices, h.budgetUnit, h.channels, h.supervisor, h.settings, h.records, h.shed, h.grants,
    h.clients, h.mode, h.ports⟩

theorem Core.sound (h : Core s) (lines : LinesDriven s) : Sound s :=
  ⟨h.sums, h.collections, h.notices, h.budgetUnit, h.channels, h.supervisor, h.settings, h.records, h.shed, h.grants,
    h.clients, h.mode, h.ports, lines⟩

theorem Moves.keeps_core (moves : Moves s t) (h : Core s) : Core t := moves.keeps h fun _ _ move h => move.keeps_core h

/-- Settles O15: each change of the part keeps `Core`, and every step drives the lines. -/
theorem everyStepKeepsThePartSound : Obligations.EveryStepKeepsThePartSound := by
  intro s t h next
  exact (step_keeps (P := Core) (fun s l h => h.pending l) (fun s t move h => move.keeps_core h) (fun s h => h.advance)
    (fun pins s _ => .atRelease pins s) h.core next).sound (step_linesDriven h.lines next)

/-- Settles O8: the release of reset, field by field; at the initial state everything between claims holds. -/
theorem resetsAreComplete : Obligations.ResetsAreComplete := by
  have core : Core State.reset := .of_blank blank_reset ⟨rfl, rfl, nofun⟩ Settings.within_reset portsOk_reset
  have tiers : ∀ k : Tier, State.reset.settings.tierBudget[k] = 0 := by decide
  refine ⟨⟨core.sound reset_linesDriven, portsOk_reset, reset_linesDriven⟩, fun pins s i reset => ?_⟩
  refine ⟨atRelease pins s, exec_reset reset, State.slot_atRelease pins s, rfl, rfl, rfl, rfl, rfl, rfl, rfl, rfl, rfl,
    rfl, rfl, rfl, State.channel_atRelease pins s, State.client_atRelease pins s, rfl, tiers, rfl, rfl, rfl, rfl, rfl,
    rfl, rfl, rfl, rfl, rfl, rfl, rfl, fun p => ?_, rfl, rfl, rfl⟩
  cases p <;> exact ⟨rfl, rfl, rfl, rfl, rfl, rfl, rfl⟩

end Sys2Proof.Machine
end

section
/-! PROOF. O6 and O7: the counter advances at the tick alone, and the tick takes every expiry that is due. A new deadline is
not due when it is set, and no change makes a deadline due that was not (R27, R29). -/

namespace Sys2Proof.Machine

/- One proof after another: side by side they need more memory than the check allows. -/
set_option Elab.async false

variable {s t u : State} {i j : SlotId} {r r' : Record} {c : ClientId} {n m : ChannelId} {x y : Channel} {q : Place}
variable {now d : Tick} {i₀ : SlotId} {n₀ : ChannelId}

/-! ## The due test (R27) -/

/-- A deadline less than half a turn ahead is not due. -/
theorem not_due_ahead (now : Tick) {len : Nat} (positive : 1 ≤ len) (most : len ≤ 600000) :
    dueAt now (now + BitVec.ofNat 32 len) = false := by
  refine decide_eq_false ?_
  bv_omega

theorem dueAt_elapsed (t : Tick) {len elapsed : Nat} (short : len ≤ 600000) (half : elapsed < 2 ^ 31) :
    dueAt (t + BitVec.ofNat 32 elapsed) (t + BitVec.ofNat 32 len) = decide (len ≤ elapsed) := by
  refine decide_eq_decide.2 ?_
  have apart : t + BitVec.ofNat 32 elapsed - (t + BitVec.ofNat 32 len) = BitVec.ofNat 32 elapsed - BitVec.ofNat 32 len := by
    bv_omega
  rw [apart]
  bv_omega

/-! ## Quiet places -/

/-- The place holds no deadline that is due at `now`. -/
def QuietAt (now : Tick) (q : Place) (s : State) : Prop := ∀ d, deadlineOf s q = some d → dueAt now d = false

/-- A deadline, where there is one, that is not due at `now`. -/
def NotDue (now : Tick) (d : Option Tick) : Prop := ∀ x, d = some x → dueAt now x = false

theorem NotDue.none (now : Tick) : NotDue now none := nofun

theorem NotDue.ahead (now : Tick) {len : Nat} (positive : 1 ≤ len) (most : len ≤ 600000) :
    NotDue now (some (now + BitVec.ofNat 32 len)) := by
  rintro _ ⟨⟩
  exact not_due_ahead now positive most

theorem quietAt_iff : QuietAt now q s ↔ NotDue now (deadlineOf s q) := .rfl

theorem placeDue_eq_false : placeDue s q = false ↔ QuietAt s.tick q s := by
  unfold placeDue QuietAt
  cases deadlineOf s q <;> simp

/-! ## The places of a record -/

/-- The deadlines of a record: its lease place, its wait place and its notice place. -/
def Record.leaseDeadline (r : Record) : Option Tick :=
  match r.phase with
  | .live _ lease _ => lease
  | _ => none

def Record.waitDeadline (r : Record) : Option Tick :=
  match r.phase with
  | .queued wait => wait
  | _ => none

def Record.noticeDeadline (r : Record) : Option Tick := r.notice?.map Notice.deadline

theorem deadlineOf_lease (s : State) (i : SlotId) :
    deadlineOf s (.lease i) = (s.slot i).record.bind Record.leaseDeadline := rfl

theorem deadlineOf_wait (s : State) (i : SlotId) :
    deadlineOf s (.wait i) = (s.slot i).record.bind Record.waitDeadline := rfl

theorem deadlineOf_notice (s : State) (i : SlotId) :
    deadlineOf s (.notice i) = (s.slot i).record.bind Record.noticeDeadline := rfl

theorem notDue_bind {o : Option Record} {f : Record → Option Tick} :
    NotDue now (o.bind f) ↔ ∀ r, o = some r → NotDue now (f r) := by
  cases o <;> simp [NotDue]

theorem leaseAt_notDue {k : Kind} (length : ∀ len, k = .leased len → 100 ≤ len ∧ len ≤ 600000) (now : Tick) :
    NotDue now (k.leaseAt now) := by
  cases k with
  | standing => exact .none now
  | leased len => exact .ahead now (by have := length len rfl; omega) (length len rfl).2

/-- The lease place of slot `i₀` stays quiet. -/
theorem lasting_leaseQuiet (s : State) (i₀ : SlotId) :
    Lasting s fun i r => RecordOk r ∧ (i = i₀ → NotDue s.tick r.leaseDeadline) := by
  have ranges := lasting_recordOk s
  exact {
    ok := fun h => h.1
    kinds := fun k h => ⟨ranges.kinds (i := 0) k h.1, h.2⟩
    powered := fun p h live => ⟨ranges.powered (i := 0) p h.1 live, fun e => by
      have quiet := h.2 e
      rwa [Record.leaseDeadline, live] at quiet⟩
    retired := fun reason h => ⟨ranges.retired (i := 0) reason h.1, fun _ => .none _⟩
    entered := fun p h => ⟨ranges.entered (i := 0) p h.1, fun _ => leaseAt_notDue h.1.length _⟩
    ended := fun h live => ⟨ranges.ended (i := 0) h.1 live, fun e => by
      have quiet := h.2 e
      rwa [Record.leaseDeadline, live] at quiet⟩
    noticed := fun h live below least most => ⟨ranges.noticed (i := 0) h.1 live below least most, fun e => by
      have quiet := h.2 e
      rwa [Record.leaseDeadline, live] at quiet⟩
    reamounted := fun h live least most => ⟨ranges.reamounted (i := 0) h.1 live least most, h.2⟩
    renewed := fun h live leased => ⟨ranges.renewed (i := 0) h.1 live leased, fun _ =>
      .ahead _ (by have := h.1.length _ leased; omega) (h.1.length _ leased).2⟩
    extended := fun h live below least most => ⟨ranges.extended (i := 0) h.1 live below least most, fun e => by
      have quiet := h.2 e
      rwa [Record.leaseDeadline, live] at quiet⟩
    admitted := fun p can ok => ⟨ranges.admitted p can ok, fun _ => leaseAt_notDue ok.length _⟩
    queued := fun can ok => ⟨ranges.queued can ok, fun _ => .none _⟩ }

/-- The wait place of slot `i₀` stays quiet. -/
theorem lasting_waitQuiet (s : State) (i₀ : SlotId) :
    Lasting s fun i r => RecordOk r ∧ (i = i₀ → NotDue s.tick r.waitDeadline) := by
  have ranges := lasting_recordOk s
  exact {
    ok := fun h => h.1
    kinds := fun k h => ⟨ranges.kinds (i := 0) k h.1, h.2⟩
    powered := fun p h live => ⟨ranges.powered (i := 0) p h.1 live, fun _ => .none _⟩
    retired := fun reason h => ⟨ranges.retired (i := 0) reason h.1, fun _ => .none _⟩
    entered := fun p h => ⟨ranges.entered (i := 0) p h.1, fun _ => .none _⟩
    ended := fun h live => ⟨ranges.ended (i := 0) h.1 live, fun _ => .none _⟩
    noticed := fun h live below least most => ⟨ranges.noticed (i := 0) h.1 live below least most, fun _ => .none _⟩
    reamounted := fun h live least most => ⟨ranges.reamounted (i := 0) h.1 live least most, h.2⟩
    renewed := fun h live leased => ⟨ranges.renewed (i := 0) h.1 live leased, fun _ => .none _⟩
    extended := fun h live below least most => ⟨ranges.extended (i := 0) h.1 live below least most, fun _ => .none _⟩
    admitted := fun p can ok => ⟨ranges.admitted p can ok, fun _ => .none _⟩
    queued := fun {_ _ a} can ok => ⟨ranges.queued can ok, fun _ => by
      change NotDue s.tick (a.timeout.map fun len => s.tick + BitVec.ofNat 32 len)
      cases e : a.timeout with
      | none => exact .none _
      | some len => exact .ahead _ (by have := ok.timeout len e; omega) (by have := ok.timeout len e; omega)⟩ }

/-- The notice place of slot `i₀` stays quiet. -/
theorem lasting_noticeQuiet (s : State) (i₀ : SlotId) :
    Lasting s fun i r => RecordOk r ∧ (i = i₀ → NotDue s.tick r.noticeDeadline) := by
  have ranges := lasting_recordOk s
  exact {
    ok := fun h => h.1
    kinds := fun k h => ⟨ranges.kinds (i := 0) k h.1, h.2⟩
    powered := fun p h live => ⟨ranges.powered (i := 0) p h.1 live, fun e => by
      have quiet := h.2 e
      rwa [Record.noticeDeadline, Record.notice?_live live] at quiet⟩
    retired := fun reason h => ⟨ranges.retired (i := 0) reason h.1, fun _ => .none _⟩
    entered := fun p h => ⟨ranges.entered (i := 0) p h.1, fun _ => .none _⟩
    ended := fun h live => ⟨ranges.ended (i := 0) h.1 live, fun _ => .none _⟩
    noticed := fun h live below least most => ⟨ranges.noticed (i := 0) h.1 live below least most, fun _ =>
      .ahead _ (by omega) (by omega)⟩
    reamounted := fun h live least most => ⟨ranges.reamounted (i := 0) h.1 live least most, h.2⟩
    renewed := fun h live leased => ⟨ranges.renewed (i := 0) h.1 live leased, fun e => by
      have quiet := h.2 e
      rwa [Record.noticeDeadline, Record.notice?_live live] at quiet⟩
    extended := fun h live below least most => ⟨ranges.extended (i := 0) h.1 live below least most, fun _ =>
      .ahead _ (by omega) (by omega)⟩
    admitted := fun p can ok => ⟨ranges.admitted p can ok, fun _ => .none _⟩
    queued := fun can ok => ⟨ranges.queued can ok, fun _ => .none _⟩ }

/-- A deadline of the record of slot `i₀` that each change leaves quiet. -/
theorem Move.record_quiet {f : Record → Option Tick}
    (lasting : Lasting s fun i r => RecordOk r ∧ (i = i₀ → NotDue s.tick (f r))) (move : Move s t) (h : Core s)
    (quiet : NotDue s.tick ((s.slot i₀).record.bind f)) : NotDue s.tick ((t.slot i₀).record.bind f) := by
  rw [notDue_bind] at quiet ⊢
  have each := move.keeps_each lasting ⟨rfl, (settingsOk_iff.1 h.settings).1, fun i r record =>
    ⟨h.records i r record, fun e => quiet r (e ▸ record)⟩⟩
  exact fun r record => (each.record i₀ r record).2 rfl

/-! ## The place of a channel -/

/-- A channel with a profile in its ranges whose place holds no deadline that is due. -/
structure CalmChannel (now : Tick) (here : Prop) (x : Channel) : Prop where
  profile : ProfileOk x.profile
  timer   : here → NotDue now (x.timer.map Prod.snd)

theorem CalmChannel.of_profile {here : Prop} (h : CalmChannel now here x) (profile : y.profile = x.profile)
    (timer : NotDue now (y.timer.map Prod.snd)) : CalmChannel now here y := ⟨profile ▸ h.profile, fun _ => timer⟩

theorem CalmChannel.faultedAt {here : Prop} (h : ProfileOk x.profile) (now : Tick) (cause : Cause) :
    CalmChannel now here (x.faultedAt now cause) := by
  refine ⟨h, fun _ => ?_⟩
  unfold Channel.faultedAt
  cases x.locks with
  | true => exact .none _
  | false => exact .ahead _ (by have := h.cooldown; omega) (by have := h.cooldown; omega)

theorem lasting_calmChannel (s : State) (n₀ : ChannelId) :
    LastingChannel s fun n x => CalmChannel s.tick (n = n₀) x where
  same h same := ⟨same.profile ▸ h.profile, fun here => same.timer ▸ h.timer here⟩
  stop {n x} h := by
    unfold Channel.stop
    split
    case h_3 => exact h
    all_goals
      split
      · exact h.of_profile rfl (.none _)
      · next some_discharge =>
        exact h.of_profile rfl (.ahead _ (Nat.pos_of_ne_zero some_discharge) (by have := h.profile.discharge; omega))
  start h _ := h.of_profile rfl
    (.ahead _ h.profile.startTime.1 (by have := h.profile.startTime; omega))
  faulted cause h _ := .faultedAt h.profile _ cause
  cameUp h _ := h.of_profile rfl
    (.ahead _ (by have := h.profile.clean; omega) (by have := h.profile.clean; omega))
  cooled h _ := h.of_profile rfl (.none _)
  written {n y} h write := by
    refine ⟨write.profile h.profile, fun here => ?_⟩
    cases write with
    | level => exact h.timer here
    | clean | unlock => exact .none _
    | discharged =>
      split
      · exact .none _
      · exact .ahead _ h.profile.startTime.1 (by have := h.profile.startTime; omega)
    | key k v =>
      have timer := h.timer here
      unfold Channel.keyWritten
      dsimp only
      split
      · unfold Channel.enableWritten
        split
        · exact .none _
        · exact .none _
        · exact .none _
        · exact timer
      · exact timer

theorem Core.eachChannel_calm (h : Core s) (quiet : QuietAt s.tick (.channel n₀) s) :
    EachChannel s (fun n x => CalmChannel s.tick (n = n₀) x) s :=
  ⟨rfl, fun n => ⟨h.settings.profiles n, fun here => here ▸ quiet⟩⟩

/-! ## No change makes a deadline due -/

theorem Basis.settle_quiet (basis : Basis s t) (within : s.settings.Within) (quiet : NotDue s.tick s.settleTimer) :
    NotDue s.tick t.settleTimer := by
  cases basis with
  | aside same => rwa [same.settleTimer]
  | settle => exact .none _
  | lineChange v =>
    by_cases same : v = s.selected
    · rw [takeLineChange_selected same]
      exact .none _
    · rw [takeLineChange_other same]
      exact .ahead _ within.tierSettle.1 (by have := within.tierSettle; omega)
  | _ => exact quiet

theorem Move.keeps_quiet (move : Move s t) (h : Core s) (quiet : QuietAt s.tick q s) : QuietAt s.tick q t := by
  cases q with
  | lease i => exact move.record_quiet (lasting_leaseQuiet s i) h quiet
  | wait i => exact move.record_quiet (lasting_waitQuiet s i) h quiet
  | notice i => exact move.record_quiet (lasting_noticeQuiet s i) h quiet
  | channel n => exact ((move.keeps_eachChannel (lasting_calmChannel s n) (h.eachChannel_calm quiet)).channel n).timer rfl
  | settle =>
    obtain ⟨u, basis, steady⟩ := move.basis
    have kept := basis.settle_quiet (settingsOk_iff.1 h.settings).1 quiet
    rwa [← steady.part.settleTimer] at kept

theorem Moves.keeps_quiet (moves : Moves s t) (h : Core s) (quiet : QuietAt s.tick q s) : QuietAt s.tick q t := by
  refine (moves.keeps (P := fun u => u.tick = s.tick ∧ Core u ∧ QuietAt s.tick q u) ⟨rfl, h, quiet⟩
    fun u v move ⟨tick, core, quiet⟩ => ?_).2.2
  rw [← tick] at quiet ⊢
  exact ⟨move.clock.tick, move.keeps_core core, move.keeps_quiet core quiet⟩

/-! ## A taken expiry leaves its place quiet -/

/-- A record that has been retired, with the hand-offs that follow, is a tombstone. -/
theorem retired_phase (reason : Reason) (i : SlotId) (r : Record) (k : Change) (s : State) (r' : Record)
    (record : ((handOnChange k (retireReporting reason i r s)).slot i).record = some r') : r'.phase = .retired reason := by
  have slot : (retireReporting reason i r s).slot i =
      { gen := (s.slot i).gen, record := some (r.tombstone reason) } := by
    rw [retireReporting, lastGrant_slot, retireRecord_slot_same]
  obtain ⟨x, now, -, -, same⟩ := ((handOnChange_handOff k (retireReporting reason i r s)).frame.slots i id).record
    (r.tombstone reason) (by rw [slot])
  cases now.symm.trans record
  rw [same rfl]
  rfl

/-- The expiry of a record's place retires the record, or finds the place quiet. -/
structure RetiresOrQuiet (reason : Reason) (i : SlotId) (q : Place) (s t : State) : Prop where
  either : t = s ∧ QuietAt s.tick q s ∨ ∃ r k, t = handOnChange k (retireReporting reason i r s)

theorem RetiresOrQuiet.quiet {reason : Reason} (h : RetiresOrQuiet reason i q s t) {f : Record → Option Tick}
    (place : ∀ u : State, deadlineOf u q = (u.slot i).record.bind f)
    (tomb : ∀ r : Record, r.phase = .retired reason → f r = none) : QuietAt s.tick q t := by
  obtain ⟨rfl, quiet⟩ | ⟨r, k, rfl⟩ := h.either
  · exact quiet
  · rw [quietAt_iff, place, notDue_bind]
    intro r' record
    rw [tomb r' (retired_phase reason i r k s r' record)]
    exact .none _

theorem takeLease_retires (i : SlotId) (s : State) : RetiresOrQuiet .leaseExpired i (.lease i) s (takeLease i s) := by
  constructor
  rw [quietAt_iff, deadlineOf_lease, notDue_bind]
  unfold takeLease
  split
  · next r record =>
    simp only [record, Option.some.injEq, forall_eq']
    split
    · next p d x live =>
      split
      · exact .inr ⟨r, _, rfl⟩
      · next early =>
        refine .inl ⟨rfl, ?_⟩
        simpa [NotDue, Record.leaseDeadline, live] using early
    · next idle =>
      refine .inl ⟨rfl, fun d lease => absurd lease ?_⟩
      unfold Record.leaseDeadline
      split
      · next p l x live =>
        rintro rfl
        exact idle p d x live
      · nofun
  · next free => exact .inl ⟨rfl, fun r record => by rw [free] at record; cases record⟩

theorem takeWait_retires (i : SlotId) (s : State) : RetiresOrQuiet .waitExpired i (.wait i) s (takeWait i s) := by
  constructor
  rw [quietAt_iff, deadlineOf_wait, notDue_bind]
  unfold takeWait
  split
  · next r record =>
    simp only [record, Option.some.injEq, forall_eq']
    split
    · next d queued =>
      split
      · exact .inr ⟨r, _, rfl⟩
      · next early =>
        refine .inl ⟨rfl, ?_⟩
        simpa [NotDue, Record.waitDeadline, queued] using early
    · next idle =>
      refine .inl ⟨rfl, fun d wait => absurd wait ?_⟩
      unfold Record.waitDeadline
      split
      · next w queued =>
        rintro rfl
        exact idle d queued
      · nofun
  · next free => exact .inl ⟨rfl, fun r record => by rw [free] at record; cases record⟩

theorem takeNotice_retires (i : SlotId) (s : State) :
    RetiresOrQuiet .revokedTimeout i (.notice i) s (takeNotice i s) := by
  constructor
  rw [quietAt_iff, deadlineOf_notice, notDue_bind]
  unfold takeNotice
  split
  · next r record =>
    simp only [record, Option.some.injEq, forall_eq']
    split
    · next p l n live =>
      split
      · exact .inr ⟨r, _, rfl⟩
      · next early =>
        refine .inl ⟨rfl, ?_⟩
        simpa [NotDue, Record.noticeDeadline, Record.notice?_live live] using early
    · next idle =>
      refine .inl ⟨rfl, fun d notice => absurd notice ?_⟩
      cases noticed : r.notice? with
      | none => simp [Record.noticeDeadline, noticed]
      | some n =>
        obtain ⟨p, l, live⟩ := Record.phase_of_notice noticed
        exact absurd live (idle p l n)
  · next free => exact .inl ⟨rfl, fun r record => by rw [free] at record; cases record⟩

theorem takeLease_quiet (i : SlotId) (s : State) : QuietAt s.tick (.lease i) (takeLease i s) :=
  (takeLease_retires i s).quiet (fun u => deadlineOf_lease u i) fun r tomb => by rw [Record.leaseDeadline, tomb]

theorem takeWait_quiet (i : SlotId) (s : State) : QuietAt s.tick (.wait i) (takeWait i s) :=
  (takeWait_retires i s).quiet (fun u => deadlineOf_wait u i) fun r tomb => by rw [Record.waitDeadline, tomb]

theorem takeNotice_quiet (i : SlotId) (s : State) : QuietAt s.tick (.notice i) (takeNotice i s) :=
  (takeNotice_retires i s).quiet (fun u => deadlineOf_notice u i) fun r tomb => by
    rw [Record.noticeDeadline, Record.notice?, tomb]
    rfl

theorem takeSettle_quiet (s : State) : QuietAt s.tick .settle (takeSettle s) := by
  unfold takeSettle
  split
  · next d armed =>
    split
    · have none : (rebudget (selectTier (s.pendingTier.getD s.selected) s)).settleTimer = Option.none :=
        (Steady.rebudget (selectTier (s.pendingTier.getD s.selected) s)).part.settleTimer
      intro x e
      cases none.symm.trans e
    · next early =>
      rintro _ e
      cases armed.symm.trans e
      exact Bool.eq_false_iff.2 early
  · next empty =>
    intro x e
    cases empty.symm.trans e

/-! ## The place of a channel -/

/-- The property that the place of channel `n` is quiet, and every profile within its ranges. -/
def CalmAt (s : State) (n m : ChannelId) (x : Channel) : Prop := CalmChannel s.tick (m = n) x

theorem EachChannel.quiet (h : EachChannel s (CalmAt s n) t) : QuietAt s.tick (.channel n) t := (h.channel n).timer rfl

/-- A part whose channel `n` alone differs from `s`, and is calm. -/
theorem Core.calm_of (h : Core s) (tick : t.tick = s.tick) (own : CalmChannel s.tick (n = n) (t.channel n))
    (others : ∀ m, m ≠ n → (t.channel m).profile = (s.channel m).profile) : EachChannel s (CalmAt s n) t := by
  refine ⟨tick, fun m => ?_⟩
  by_cases other : m = n
  · subst other
    exact own
  · exact ⟨others m other ▸ h.settings.profiles m, fun here => absurd here other⟩

theorem Core.calm_setChannel (h : Core s) (own : CalmChannel s.tick (n = n) y) :
    EachChannel s (CalmAt s n) (s.setChannel n y) := by
  refine h.calm_of rfl (by rwa [State.channel_setChannel_same]) fun m other => ?_
  rw [State.channel_setChannel, if_neg other]

/-- A fault leaves the place of its channel quiet. -/
theorem Core.calm_fault (h : Core s) (n : ChannelId) (cause : Cause) : EachChannel s (CalmAt s n) (fault n cause s) := by
  have lasting := lasting_calmChannel s n
  have tick : (faultRetired n cause s).tick = s.tick :=
    (fault_handOff n cause s).frame.part.tick.symm.trans (Steady.fault n cause s).part.tick
  have retired : EachChannel s (CalmAt s n) (faultRetired n cause s) :=
    h.calm_of tick (lasting.same (.faultedAt (h.settings.profiles n) _ cause) (faultRetired_channel n cause s).sameDrive)
      fun m other => (faultRetired_channel_other cause other).2
  rw [fault_eq]
  exact retired.handOn lasting _ _

/-- A place whose timer is of another kind, or not due, is passed over. -/
theorem channelDue_eq_true {k : ChannelTimer} : channelDue k n s = true ↔
    ∃ d, (s.channel n).timer = some (k, d) ∧ dueAt s.tick d = true := by
  unfold channelDue
  split
  · next k' d armed =>
    simp only [armed, Bool.and_eq_true, decide_eq_true_eq, Option.some.injEq, Prod.mk.injEq]
    constructor
    · rintro ⟨rfl, due⟩
      exact ⟨d, ⟨rfl, rfl⟩, due⟩
    · rintro ⟨x, ⟨rfl, rfl⟩, due⟩
      exact ⟨rfl, due⟩
  · next empty => simp [empty]

/-- The state that the kind of a channel's timer tells (Table 29). -/
theorem Core.state_of_timer (h : Core s) {k : ChannelTimer} (armed : (s.channel n).timer = some (k, d)) :
    (s.channel n).state = match k with
      | .start => .starting
      | .discharge => .stopping
      | .cooldown => .faulted
      | .clean => .on := by
  have place := h.channels.timer n
  rw [armed] at place
  cases k <;> cases st : (s.channel n).state <;> simp [st, ChannelState.timerOk] at place ⊢

/-- One expiry at the channel's place: it leaves the place quiet, or its own kind of timer is not due and it changes
nothing. -/
def TakesOrPasses (k : ChannelTimer) (n : ChannelId) (s t : State) : Prop :=
  QuietAt s.tick (.channel n) t ∨ channelDue k n s = false ∧ t = s

theorem takeStart_takes (h : Core s) (n : ChannelId) : TakesOrPasses .start n s (takeStart n s) := by
  cases due : channelDue .start n s with
  | true =>
    obtain ⟨d, armed, -⟩ := channelDue_eq_true.1 due
    have starting := h.state_of_timer armed
    have taken : takeStart n s = fault n .startTimeout s := by simp [takeStart, due, starting]
    exact .inl (taken ▸ (h.calm_fault n _).quiet)
  | false => exact .inr ⟨due, by simp [takeStart, due]⟩

theorem takeDischarge_takes (h : Core s) (n : ChannelId) : TakesOrPasses .discharge n s (takeDischarge n s) := by
  have profile := h.settings.profiles n
  cases due : channelDue .discharge n s with
  | true =>
    obtain ⟨d, armed, -⟩ := channelDue_eq_true.1 due
    have stopping := h.state_of_timer armed
    have taken : takeDischarge n s = s.setChannel n
        (if (s.channel n).live = 0 then (s.channel n).enter .off none else (s.channel n).beginStart s.tick) := by
      simp [takeDischarge, due, stopping]
    refine .inl (taken ▸ (h.calm_setChannel ?_).quiet)
    split
    · exact ⟨profile, fun _ => .none _⟩
    · exact ⟨profile, fun _ => .ahead _ profile.startTime.1 (by have := profile.startTime; omega)⟩
  | false => exact .inr ⟨due, by simp [takeDischarge, due]⟩

theorem takeCooldown_takes (h : Core s) (n : ChannelId) : TakesOrPasses .cooldown n s (takeCooldown n s) := by
  have profile := h.settings.profiles n
  cases due : channelDue .cooldown n s with
  | true =>
    obtain ⟨d, armed, -⟩ := channelDue_eq_true.1 due
    have faulted := h.state_of_timer armed
    have taken : takeCooldown n s = handOn false true (s.setChannel n ((s.channel n).enter .off none)) := by
      simp [takeCooldown, due, faulted]
    have cooled : EachChannel s (CalmAt s n) (s.setChannel n ((s.channel n).enter .off none)) :=
      h.calm_setChannel ⟨profile, fun _ => .none _⟩
    exact .inl (taken ▸ (cooled.handOn (lasting_calmChannel s n) _ _).quiet)
  | false => exact .inr ⟨due, by simp [takeCooldown, due]⟩

theorem takeClean_takes (h : Core s) (n : ChannelId) : TakesOrPasses .clean n s (takeClean n s) := by
  cases due : channelDue .clean n s with
  | true =>
    obtain ⟨d, armed, -⟩ := channelDue_eq_true.1 due
    have on := h.state_of_timer armed
    have taken : takeClean n s = s.setChannel n { s.channel n with faultCount := 0, timer := none } := by
      simp [takeClean, due, on]
    have calm : EachChannel s (CalmAt s n) (s.setChannel n { s.channel n with faultCount := 0, timer := none }) :=
      h.calm_setChannel ⟨h.settings.profiles n, fun _ => .none _⟩
    exact .inl (taken ▸ calm.quiet)
  | false => exact .inr ⟨due, by simp [takeClean, due]⟩

/-- A place where no kind of timer is due is quiet. -/
theorem quiet_of_channelDue (none : ∀ k, channelDue k n s = false) : QuietAt s.tick (.channel n) s := by
  intro d holds
  obtain ⟨⟨k, d'⟩, armed, rfl⟩ := Option.map_eq_some_iff.1 holds
  refine Bool.eq_false_iff.2 fun due => ?_
  exact Bool.eq_false_iff.1 (none k) (channelDue_eq_true.2 ⟨d', armed, due⟩)

/-- The four expiries at the channel's place, one after another: at most one of them is taken. -/
theorem takeChannel_quiet (h : Core s) (n : ChannelId) : QuietAt s.tick (.channel n) (takePlace (.channel n) s) := by
  change QuietAt s.tick (.channel n) (takeClean n (takeCooldown n (takeDischarge n (takeStart n s))))
  have rest (u : State) : Moves u (takeClean n (takeCooldown n (takeDischarge n u))) :=
    ((takeDischarge_moves n u).trans (takeCooldown_moves n _)).trans (takeClean_moves n _)
  have rest' (u : State) : Moves u (takeClean n (takeCooldown n u)) :=
    (takeCooldown_moves n u).trans (takeClean_moves n _)
  have after {f : State → State} (moves : ∀ v, Moves v (f v)) {u : State} (before : Moves s u)
      (quiet : QuietAt s.tick (.channel n) u) : QuietAt s.tick (.channel n) (f u) := by
    have tick := before.clock.tick
    rw [← tick] at quiet ⊢
    exact (moves u).keeps_quiet (before.keeps_core h) quiet
  obtain quiet | ⟨start, e⟩ := takeStart_takes h n
  · exact after rest (takeStart_moves n s) quiet
  rw [e]
  obtain quiet | ⟨discharge, e⟩ := takeDischarge_takes h n
  · exact after rest' (takeDischarge_moves n s) quiet
  rw [e]
  obtain quiet | ⟨cooldown, e⟩ := takeCooldown_takes h n
  · exact after (takeClean_moves n) (takeCooldown_moves n s) quiet
  rw [e]
  obtain quiet | ⟨clean, e⟩ := takeClean_takes h n
  · exact quiet
  rw [e]
  exact quiet_of_channelDue fun k => by cases k <;> assumption

theorem takePlace_quiet (h : Core s) (q : Place) : QuietAt s.tick q (takePlace q s) := by
  cases q with
  | lease i => exact takeLease_quiet i s
  | wait i => exact takeWait_quiet i s
  | notice i => exact takeNotice_quiet i s
  | channel n => exact takeChannel_quiet h n
  | settle => exact takeSettle_quiet s

/-- Taking several places leaves each of them quiet, and every place that was quiet. -/
theorem takePlaces_quiet {l : List Place} (h : Core s) (all : ∀ q, q ∈ l ∨ QuietAt s.tick q s) (q : Place) :
    QuietAt s.tick q (takePlaces l s) := by
  induction l generalizing s with
  | nil => exact (all q).resolve_left (by simp)
  | cons x rest ih =>
    have moves := takePlace_moves x s
    have tick := moves.clock.tick
    rw [← tick]
    refine ih (moves.keeps_core h) fun y => ?_
    rw [tick]
    obtain member | quiet := all y
    · obtain rfl | member := List.mem_cons.1 member
      · exact .inr (takePlace_quiet h y)
      · exact .inl member
    · exact .inr (moves.keeps_quiet h quiet)

/-! ## The tick -/

theorem mem_allPlaces (q : Place) : q ∈ allPlaces := by
  cases q <;> simp [allPlaces]

theorem takeDue_of_quiet (quiet : ∀ q, placeDue s q = false) : takeDue s = s := by
  have none : duePlaces s = [] := List.filter_eq_nil_iff.2 fun q _ => by simp [quiet q]
  rw [takeDue, none]
  rfl

theorem takeDue_quiet (h : Core s) (q : Place) : QuietAt s.tick q (takeDue s) := by
  unfold takeDue
  split
  · next none =>
    refine placeDue_eq_false.1 (Bool.eq_false_iff.2 fun due => ?_)
    have := List.filter_eq_nil_iff.1 (List.isEmpty_iff.1 none) q (mem_allPlaces q)
    exact this due
  · have moves := Moves.resetEntry s
    have tick := moves.clock.tick
    change QuietAt s.tick q (takePlaces _ (resetEntry s))
    rw [← tick]
    refine takePlaces_quiet (moves.keeps_core h) (fun y => ?_) q
    rw [tick, (orderBy_perm ..).mem_iff]
    by_cases due : placeDue s y = true
    · exact .inl (List.mem_filter.2 ⟨mem_allPlaces y, due⟩)
    · exact .inr (moves.keeps_quiet h (placeDue_eq_false.1 (Bool.eq_false_iff.2 due)))

/-- Settles O7: no change makes a deadline due that was not, and each place that is due is taken. -/
theorem tickLeavesNoExpiryBehind : Obligations.TickLeavesNoExpiryBehind := by
  intro s t sound next
  cases next
  exact ⟨congrArg (· + 1) (takeDue_moves s).clock.tick, fun q d holds => takeDue_quiet sound.core q d (by
    rw [← holds]; cases q <;> rfl)⟩

/-- Settles O6: `exec_cases` says what else a row can be. -/
theorem tickAdvancesTheCounter : Obligations.TickAdvancesTheCounter := by
  refine ⟨fun s quiet => ?_, fun i s t next => ⟨?_, ?_, ?_⟩, fun t len elapsed short half => dueAt_elapsed t short half⟩
  · change Host.Outcome.next (driveLines { takeDue s with tick := (takeDue s).tick + 1 }) = _
    rw [takeDue_of_quiet quiet]
    rfl
  · rintro rfl
    cases next
    change (takeDue s).tick + 1 = _
    rw [(takeDue_moves s).clock.tick]
  · intro pins reset
    rw [exec_reset reset] at next
    cases next
    rfl
  · intro row noReset
    obtain moves | ⟨tick, -⟩ | ⟨pins, reset, -⟩ := exec_cases next
    · exact moves.clock.tick
    · exact absurd tick row
    · exact absurd reset (not_or.2 (noReset pins))

end Sys2Proof.Machine
end

section
/-! PROOF. O1, O2, O16, O17, O18, O19, O31, O36: every row is taken; and the check orders. A command is one action, which
either refuses and changes nothing or answers one of the four results of an accepted command. -/

namespace Sys2Proof.Machine

/- One proof after another: side by side they need more memory than the check allows. -/
set_option Elab.async false

variable {s t : State} {p : PortId} {c : ClientId} {i : Instr} {h : Half} {j : SlotId} {r : Record} {e : Result}
variable {pre : List (Bool × Result)} {ok : Bool} {mayName : Record → Bool} {f : State → State × Reply}

/-! ## The step (R1) -/

/-- Settles O1: both halves are the two branches of `step`. -/
theorem stepTakesTheFront : Obligations.StepTakesTheFront := fun _ _ _ => ⟨rfl, rfl⟩

theorem claimWhen_next (b : Bool) (f : State → State) (s : State) : ∃ t, claimWhen b f s = .next t := by
  cases b <;> exact ⟨_, rfl⟩

theorem lineEvent_next (takes : ChannelState → Bool) (level f : State → State) (n : ChannelId) (s : State) :
    ∃ t, lineEvent takes level f n s = .next t := by
  obtain ⟨-, e⟩ | ⟨-, e⟩ := lineEvent_cases takes level f n s <;> exact ⟨_, e⟩

theorem execWriteTransaction_next (bus : Bus) (bytes : List Byte) (s : State) :
    ∃ t, execWriteTransaction bus bytes s = .next t := by
  unfold execWriteTransaction
  split
  · exact ⟨_, rfl⟩
  · dsimp only
    split <;> exact ⟨_, rfl⟩

theorem execReadTransaction_next (bus : Bus) (count : Nat) (s : State) :
    ∃ t, execReadTransaction bus count s = .next t := by
  unfold execReadTransaction
  split <;> exact ⟨_, rfl⟩

theorem execDirectionByteRefused_next (direction : Byte) (count : Nat) (s : State) :
    ∃ t, execDirectionByteRefused direction count s = .next t := by
  unfold execDirectionByteRefused
  split <;> exact ⟨_, rfl⟩

theorem execResponsePlaced_next (p : PortId) (s : State) : ∃ t, execResponsePlaced p s = .next t := by
  unfold execResponsePlaced
  dsimp only
  split <;> exact ⟨_, rfl⟩

/-- A command, a claim and a plain write of the state are taken in every state; what remains decides only whether there
is a claim. -/
theorem exec_next (i : Instr) (s : State) : ∃ t, exec i s = .next t := by
  cases i with
  | writeTransaction bus bytes => exact execWriteTransaction_next bus bytes s
  | readTransaction bus count => exact execReadTransaction_next bus count s
  | directionByteRefused direction count => exact execDirectionByteRefused_next direction count s
  | responsePlaced p => exact execResponsePlaced_next p s
  | leaseExpiry | waitExpiry | noticeExpiry | startTimeout | dischargeExpiry | cooldownExpiry | settleExpiry
  | resetSafeEntry | sampledLineEvent => exact claimWhen_next _ _ s
  | powerGood n => exact lineEvent_next (fun st => decide (st = .starting)) _ _ n s
  | powerLoss n => exact lineEvent_next (fun st => decide (st = .on)) _ _ n s
  | trip n => exact lineEvent_next ChannelState.drives _ _ n s
  | _ => exact ⟨_, rfl⟩

/-- Settles O2. -/
theorem everyRowIsTaken : Obligations.EveryRowIsTaken := by
  intro i s
  obtain ⟨t, next⟩ := exec_next i s
  exact ⟨t, next, exec_pending next⟩

/-! ## A command refuses, or is accepted -/

/-- The four results of a command that is accepted. -/
def Reply.accepts (a : Reply) : Prop :=
  a.result = .ok ∨ a.result = .queued ∨ a.result = .extended ∨ a.result = .revoked

/-- What a command's action gives in state `s`: a refusal, which changes nothing, or an accepted command. -/
def Decides (s : State) (o : State × Reply) : Prop := (∃ e, o = refuse e s) ∨ o.2.accepts

theorem Decides.refuse : Decides s (Machine.refuse e s) := .inl ⟨e, rfl⟩

theorem Decides.taken {payload : List Byte} : Decides s (taken payload t) := .inr (.inl rfl)

theorem Decides.checked {checks : State → List (Bool × Result)} (action : Decides s (f s)) :
    Decides s (checked checks f s) := by
  unfold Machine.checked
  split
  · exact .refuse
  · exact action

theorem admittedReply_accepts (j : SlotId) (s : State) : (admittedReply j s).accepts := by
  unfold admittedReply
  split <;> exact .inl rfl

theorem queuedReply_accepts (j : SlotId) (s : State) : (queuedReply j s).accepts := by
  unfold queuedReply
  split <;> exact .inr (.inl rfl)

theorem decideRequest_decides (j : SlotId) (c : ClientId) (a : Ask) (s : State) : Decides s (decideRequest j c a s) := by
  unfold decideRequest
  split
  · exact .inr (admittedReply_accepts ..)
  split
  · exact .refuse
  split
  · exact .refuse
  · exact .inr (queuedReply_accepts ..)

theorem requestAct_decides (p : PortId) (c : ClientId) (ask : Option Ask) (s : State) :
    Decides s (requestAct p c ask s) := by
  unfold requestAct
  split
  · exact .refuse
  · exact .refuse
  split
  · exact .refuse
  · exact .refuse
  · exact decideRequest_decides ..

theorem releaseAct_decides (p : PortId) (c : ClientId) (h : Half) (s : State) : Decides s (releaseAct p c h s) := by
  unfold releaseAct
  split
  · exact .refuse
  split
  · exact .refuse
  · exact .taken

theorem resizeAct_decides (p : PortId) (c : ClientId) (h amount : Half) (s : State) :
    Decides s (resizeAct p c h amount s) := by
  unfold resizeAct
  dsimp only
  split
  · exact .refuse
  split
  · exact .refuse
  split
  · exact .taken
  split
  · exact .taken
  · exact .checked .taken

theorem renewAct_decides (p : PortId) (c : ClientId) (h : Half) (s : State) : Decides s (renewAct p c h s) := by
  unfold renewAct
  split
  · exact .refuse
  split
  · exact .taken
  · exact .refuse

theorem revoke_decides (j : SlotId) (r : Record) (s : State) : Decides s (revoke j r s) := .inr (.inr (.inr (.inr rfl)))

theorem extend_decides (j : SlotId) (r : Record) (n : Notice) (s : State) : Decides s (extend j r n s) := by
  unfold extend
  split
  · exact .inr (.inr (.inr (.inl rfl)))
  · exact .refuse

theorem answerNotice_decides (k : AnswerKind) (j : SlotId) (r : Record) (n : Notice) (s : State) :
    Decides s (answerNotice k j r n s) := by
  cases k with
  | ack =>
    unfold answerNotice
    dsimp only
    split <;> exact .taken
  | nak => exact revoke_decides ..
  | busy =>
    unfold answerNotice
    dsimp only
    split
    · exact extend_decides ..
    · exact revoke_decides ..

theorem answerAct_decides (k : AnswerKind) (ok : Bool) (p : PortId) (c : ClientId) (h : Half) (s : State) :
    Decides s (answerAct k ok p c h s) := by
  unfold answerAct
  split
  · exact .refuse
  split
  · exact answerNotice_decides ..
  · exact .refuse
  · exact .refuse

theorem forceRetireAct_decides (p : PortId) (c : ClientId) (h : Half) (s : State) :
    Decides s (forceRetireAct p c h s) := by
  unfold forceRetireAct
  split
  · exact .refuse
  split
  · exact .refuse
  · exact .taken

theorem queryAct_decides (p : PortId) (c : ClientId) (h : Half) (s : State) : Decides s (queryAct p c h s) := by
  unfold queryAct
  split
  · exact .refuse
  · exact .taken

theorem nextNoticeAct_decides (p : PortId) (c : ClientId) (s : State) : Decides s (nextNoticeAct p c s) := by
  refine .checked ?_
  split
  · exact .taken
  split <;> exact .taken

theorem writeAct_decides (p : PortId) (c : ClientId) (key index : Byte) (value : Half) (s : State) :
    Decides s (writeAct p c key index value s) := by
  unfold writeAct
  split
  · exact .refuse
  split
  · exact .refuse
  · exact .checked .taken

theorem readSettingAct_decides (p : PortId) (c : ClientId) (key index : Byte) (s : State) :
    Decides s (readSettingAct p c key index s) := by
  unfold readSettingAct
  split
  · exact .refuse
  split
  · exact .refuse
  split
  · exact .taken
  · exact .refuse

/-! ## The entry to a client command (R131, R132) -/

/-- A client command fails at its entry: on the client port client 0 is DENIED; without an open session the command is
CLOSED, but for a RENEW or a RESIZE that a close has overtaken. -/
inductive EntryFails (p : PortId) (c : ClientId) (i : Instr) (s : State) : Result → Prop
  | denied (mayNot : clientMaySend p c = false) : EntryFails p c i s .denied
  | closed (may : clientMaySend p c = true) (shut : (s.client c).isOpen = false)
      (inTime : ¬ ((changeOf i).isSome = true ∧ wasOvertaken p i s = true ∧ s.mode.serves = true)) :
      EntryFails p c i s .closed

theorem EntryFails.first (fails : EntryFails p c i s e) (m : Bool) (rest : List (Bool × Result)) :
    firstFailure (clientChecks p c m s ++ rest) = some e := by
  cases fails with
  | denied mayNot => simp [clientChecks, firstFailure, mayNot]
  | closed may shut _ => simp [clientChecks, firstFailure, may, shut]

theorem EntryFails.first_alone (fails : EntryFails p c i s e) (m : Bool) : firstFailure (clientChecks p c m s) = some e := by
  simpa using fails.first m []

/-- A check before the handle that fails decides the check order of R4. -/
theorem namedRecord_fails (fails : firstFailure (pre ++ [(handleOk h && ok, .range)]) = some e) :
    namedRecord pre ok h mayName s = .error e := by
  simp only [namedRecord, fails]

theorem EntryFails.ownRecord (fails : EntryFails p c i s e) : ownRecord p c h ok s = .error e :=
  namedRecord_fails (fails.first _ _)

theorem EntryFails.changeRecord (fails : EntryFails p c i s e) (change : (changeOf i).isSome = true) :
    changeRecord i p c h ok s = .error e := by
  obtain ⟨lost, may, serves, -⟩ | ⟨-, own⟩ := changeRecord_cases i p c h ok s
  · cases fails with
    | denied mayNot => simp [may] at mayNot
    | closed _ _ inTime => exact absurd ⟨change, lost, serves⟩ inTime
  · exact own.trans fails.ownRecord

/-! ## The rows of the commands -/

/-- The action of a client command. -/
structure ClientAction (p : PortId) (c : ClientId) (i : Instr) (f : State → State × Reply) : Prop where
  entry   : ∀ s e, EntryFails p c i s e → f s = refuse e s
  decides : ∀ s, Decides s (f s)

/-- The action of a supervisor command. -/
structure SupervisorAction (p : PortId) (c : ClientId) (f : State → State × Reply) : Prop where
  denied  : supervisorMaySend p c = false → ∀ s, f s = refuse .denied s
  decides : ∀ s, Decides s (f s)

/-- A client command whose checks begin with those of its entry. -/
theorem ClientAction.checked {m : State → Bool} {rest : State → List (Bool × Result)} (accepts : ∀ s, Decides s (f s)) :
    ClientAction p c i (checked (fun s => clientChecks p c (m s) s ++ rest s) f) where
  entry s _ fails := checked_of_failure f (fails.first (m s) (rest s))
  decides s := .checked (accepts s)

/-- A supervisor command whose checks begin with its port test. -/
theorem SupervisorAction.checked {rest : State → List (Bool × Result)} (accepts : ∀ s, Decides s (f s)) :
    SupervisorAction p c (checked (fun s => (supervisorMaySend p c, .denied) :: rest s) f) where
  denied mayNot s := checked_of_failure f (by rw [mayNot]; rfl)
  decides s := .checked (accepts s)

theorem requestAct_client (p : PortId) (c : ClientId) (ask : Option Ask) (i : Instr) :
    ClientAction p c i (requestAct p c ask) where
  entry s e fails := by simp only [requestAct, fails.first_alone]
  decides := requestAct_decides p c ask

theorem releaseAct_client (p : PortId) (c : ClientId) (h : Half) (i : Instr) : ClientAction p c i (releaseAct p c h) where
  entry s e fails := by simp only [releaseAct, fails.ownRecord]
  decides := releaseAct_decides p c h

theorem resizeAct_client (p : PortId) (c : ClientId) (h amount : Half) :
    ClientAction p c (.resize p c h amount) (resizeAct p c h amount) where
  entry s e fails := by simp only [resizeAct, fails.changeRecord rfl]
  decides := resizeAct_decides p c h amount

theorem renewAct_client (p : PortId) (c : ClientId) (h : Half) : ClientAction p c (.renew p c h) (renewAct p c h) where
  entry s e fails := by simp only [renewAct, fails.changeRecord rfl]
  decides := renewAct_decides p c h

theorem answerAct_client (k : AnswerKind) (ok : Bool) (p : PortId) (c : ClientId) (h : Half) (i : Instr) :
    ClientAction p c i (answerAct k ok p c h) where
  entry s e fails := by simp only [answerAct, fails.ownRecord]
  decides := answerAct_decides k ok p c h

theorem queryAct_client (p : PortId) (c : ClientId) (h : Half) (i : Instr) : ClientAction p c i (queryAct p c h) where
  entry s e fails := by simp only [queryAct, namedRecord_fails (fails.first _ _)]
  decides := queryAct_decides p c h

theorem nextNoticeAct_client (p : PortId) (c : ClientId) (i : Instr) : ClientAction p c i (nextNoticeAct p c) where
  entry _ _ fails := checked_of_failure _ (fails.first_alone _)
  decides := nextNoticeAct_decides p c

theorem forceRetireAct_supervisor (p : PortId) (c : ClientId) (h : Half) :
    SupervisorAction p c (forceRetireAct p c h) where
  denied mayNot s := by
    have fails : namedRecord [(supervisorMaySend p c, .denied), (s.mode.serves, .mode)] true h (fun _ => true) s =
        .error .denied := namedRecord_fails (by rw [mayNot]; rfl)
    simp only [forceRetireAct, fails]
  decides := forceRetireAct_decides p c h

theorem writeAct_supervisor (p : PortId) (c : ClientId) (key index : Byte) (value : Half) :
    SupervisorAction p c (writeAct p c key index value) where
  denied mayNot s := by simp only [writeAct, mayNot, Bool.not_false, if_true]
  decides := writeAct_decides p c key index value

theorem readSettingAct_supervisor (p : PortId) (c : ClientId) (key index : Byte) :
    SupervisorAction p c (readSettingAct p c key index) where
  denied mayNot s := by simp only [readSettingAct, mayNot, Bool.not_false, if_true]
  decides := readSettingAct_decides p c key index

/-- The row of a command: its action, and whether it is a client's or the supervisor's, which its code says (Table 48). -/
structure CommandRow (p : PortId) (c : ClientId) (code : Byte) (i : Instr) (f : State → State × Reply) : Prop where
  runs       : ∀ s, exec i s = command p i f s
  client     : code.toNat < 0x20 → ClientAction p c i f
  supervisor : 0x20 ≤ code.toNat → SupervisorAction p c f

theorem CommandRow.of_client {code : Byte} (runs : ∀ s, exec i s = command p i f s) (action : ClientAction p c i f)
    (low : code.toNat < 0x20 := by decide) : CommandRow p c code i f := ⟨runs, fun _ => action, fun high => by omega⟩

theorem CommandRow.of_supervisor {code : Byte} (runs : ∀ s, exec i s = command p i f s)
    (action : SupervisorAction p c f) (high : 0x20 ≤ code.toNat := by decide) : CommandRow p c code i f :=
  ⟨runs, fun low => by omega, fun _ => action⟩

theorem CommandRow.decides {code : Byte} (row : CommandRow p c code i f) (s : State) : Decides s (f s) :=
  (Nat.lt_or_ge code.toNat 0x20).elim (fun low => (row.client low).decides s) fun high => (row.supervisor high).decides s

theorem commandRow {code : Byte} {payload : List Byte} (parts : commandParts i = some (p, c, code, payload)) :
    ∃ f, CommandRow p c code i f := by
  cases i with
  | request => cases parts; exact ⟨_, .of_client (fun _ => rfl) (requestAct_client _ _ _ _)⟩
  | release => cases parts; exact ⟨_, .of_client (fun _ => rfl) (releaseAct_client _ _ _ _)⟩
  | resize => cases parts; exact ⟨_, .of_client (fun _ => rfl) (resizeAct_client _ _ _ _)⟩
  | renew => cases parts; exact ⟨_, .of_client (fun _ => rfl) (renewAct_client _ _ _)⟩
  | answerAck | answerNak | answerBusy =>
    cases parts
    exact ⟨_, .of_client (fun _ => rfl) (answerAct_client _ _ _ _ _ _)⟩
  | query => cases parts; exact ⟨_, .of_client (fun _ => rfl) (queryAct_client _ _ _ _)⟩
  | list | clientStatus => cases parts; exact ⟨_, .of_client (fun _ => rfl) (.checked fun _ => .taken)⟩
  | nextNotice => cases parts; exact ⟨_, .of_client (fun _ => rfl) (nextNoticeAct_client _ _ _)⟩
  | openClient | closeClient | unlockChannel | readStatus | readChannel | clearEvents | start | hold | resume
  | enterSafe | restart => cases parts; exact ⟨_, .of_supervisor (fun _ => rfl) (.checked fun _ => .taken)⟩
  | forceRetire => cases parts; exact ⟨_, .of_supervisor (fun _ => rfl) (forceRetireAct_supervisor _ _ _)⟩
  | writeTierBudget | writeBudgetCap | writeReserve0 | writeEventMask | writeChEnable | writeSetting =>
    cases parts
    exact ⟨_, .of_supervisor (fun _ => rfl) (writeAct_supervisor _ _ _ _ _)⟩
  | readSetting => cases parts; exact ⟨_, .of_supervisor (fun _ => rfl) (readSettingAct_supervisor _ _ _ _)⟩
  | _ => cases parts

/-- Settles O16: what is not accepted is a refusal. -/
theorem refusedCommandsChangeNothing : Obligations.RefusedCommandsChangeNothing := by
  intro i p c code payload s t parts settled next
  obtain ⟨f, row⟩ := commandRow parts
  have runs := (row.runs s).trans (command_settled settled rfl)
  cases next.symm.trans runs
  refine ⟨(f s).2, (respond_answered p i (f s).2 (SamePorts.refl (f s).1)).response, fun notOk notQueued notExtended
    notRevoked => ?_⟩
  obtain ⟨e, refused⟩ | ok | queued | extended | revoked := row.decides s
  · rw [refused]
    exact ⟨rfl, respond_part .., respond_body ..⟩
  · exact absurd ok notOk
  · exact absurd queued notQueued
  · exact absurd extended notExtended
  · exact absurd revoked notRevoked

theorem CommandRow.onlyAnswers {code : Byte} (row : CommandRow p c code i f) (settled : s.resetSafe = false)
    (refused : f s = refuse e s) : OnlyAnswers p i { result := e } s :=
  refused_only_answers settled (row.runs s) refused

/-- A RENEW or a RESIZE that a close has overtaken skips the session test, and is STALE. -/
theorem changeRecord_overtaken (lost : wasOvertaken p i s = true) (may : clientMaySend p c = true)
    (serves : s.mode.serves = true) (inside : handleOk h = true) (stale : named h s = none) :
    changeRecord i p c h true s = .error .stale := by
  obtain ⟨-, -, -, skips⟩ | ⟨inTime, -⟩ := changeRecord_cases i p c h true s
  · exact skips.trans (namedRecord_stale rfl inside stale)
  · exact absurd ⟨lost, may, serves⟩ inTime

/-- Settles O17: what fails at the entry of a row, and the one command that skips the session test. -/
theorem portAndSessionTestsComeFirst : Obligations.PortAndSessionTestsComeFirst := by
  intro i p c code payload s parts settled
  obtain ⟨f, row⟩ := commandRow parts
  refine ⟨fun supervisor mayNot => ?_, fun client port zero => ?_, fun client may shut inTime => ?_,
    fun h amount change may handed lost serves inside stale => ?_⟩
  · refine row.onlyAnswers settled ((row.supervisor supervisor).denied ?_ s)
    rw [supervisorMaySend_eq]
    exact decide_eq_false mayNot
  · refine row.onlyAnswers settled ((row.client client).entry s _ (.denied ?_))
    rw [port, zero]
    rfl
  · refine row.onlyAnswers settled ((row.client client).entry s _ (.closed may shut fun ⟨change, lost, serves⟩ => ?_))
    simp only [wasOvertaken, Bool.and_eq_true, decide_eq_true_eq] at lost
    exact inTime ⟨change, lost.1, lost.2, serves⟩
  · have overtaken : wasOvertaken p i s = true := by simp [wasOvertaken, handed, lost]
    have missed := changeRecord_overtaken overtaken may serves (decide_eq_true inside) (named_stale stale)
    obtain rfl | ⟨rfl, least, most⟩ := change
    · exact refused_only_answers (f := renewAct p c h) settled rfl (by simp only [renewAct, missed, refuse])
    · have fits : within 1 2500 amount.toNat = true := by simp [within, least, most]
      exact refused_only_answers (f := resizeAct p c h amount) settled rfl
        (by simp only [resizeAct, fits, missed, refuse])

/-! ## The commands that name a handle (R4) -/

/-- The commands that name a handle of the client's own record; the flag says that the other fields are in range. -/
inductive NamesHandle (p : PortId) (c : ClientId) (h : Half) : Instr → Bool → Prop
  | release : NamesHandle p c h (.release p c h) true
  | resize (amount : Half) : NamesHandle p c h (.resize p c h amount) (within 1 2500 amount.toNat)
  | renew : NamesHandle p c h (.renew p c h) true
  | ack : NamesHandle p c h (.answerAck p c h) true
  | nak : NamesHandle p c h (.answerNak p c h) true
  | busy (answer : Byte) : NamesHandle p c h (.answerBusy p c { handle := h, answer := answer }) (decide (answer = 2))

/-- Where the session is open, a RENEW or a RESIZE meets the same checks as the others. -/
theorem ClientMayAct.changeRecord (may : ClientMayAct p c s) (i : Instr) (ok : Bool) :
    changeRecord i p c h ok s = ownRecord p c h ok s := by
  obtain ⟨-, -, serves, -⟩ | ⟨-, own⟩ := changeRecord_cases i p c h ok s
  · exact changeRecord_open i may serves
  · exact own

theorem NamesHandle.refused (row : NamesHandle p c h i ok) (may : ClientMayAct p c s)
    (fails : ownRecord p c h ok s = .error e) : OnlyAnswers p i { result := e } s := by
  cases row with
  | release => exact refused_only_answers (f := releaseAct p c h) may.settled rfl (by simp only [releaseAct, fails, refuse])
  | resize amount =>
    exact refused_only_answers (f := resizeAct p c h amount) may.settled rfl
      (by simp only [resizeAct, may.changeRecord, fails, refuse])
  | renew =>
    exact refused_only_answers (f := renewAct p c h) may.settled rfl
      (by simp only [renewAct, may.changeRecord, fails, refuse])
  | ack | nak | busy =>
    exact refused_only_answers (f := answerAct _ _ p c h) may.settled rfl (by simp only [answerAct, fails, refuse])

theorem NamesHandle.of_row {amount : Half} {answer : Byte} (row : i = .release p c h ∨ i = .resize p c h amount ∨
      i = .renew p c h ∨ i = .answerAck p c h ∨ i = .answerNak p c h ∨
      i = .answerBusy p c { handle := h, answer := answer }) :
    ∃ ok, NamesHandle p c h i ok ∧ ((i = .resize p c h amount ∧ (amount = 0 ∨ 2500 < amount.toNat)) ∨
        (i = .answerBusy p c { handle := h, answer := answer } ∧ answer ≠ 2) → ok = false) ∧
      ((i = .resize p c h amount → 1 ≤ amount.toNat ∧ amount.toNat ≤ 2500) →
        (i = .answerBusy p c { handle := h, answer := answer } → answer = 2) → ok = true) := by
  obtain rfl | rfl | rfl | rfl | rfl | rfl := row
  · exact ⟨_, .release, by simp, by simp⟩
  · refine ⟨_, .resize amount, ?_, fun range _ => by simp [within, range rfl]⟩
    rintro (⟨-, rfl | above⟩ | ⟨other, -⟩)
    · rfl
    · simp [within, above]
    · cases other
  · exact ⟨_, .renew, by simp, by simp⟩
  · exact ⟨_, .ack, by simp, by simp⟩
  · exact ⟨_, .nak, by simp, by simp⟩
  · exact ⟨_, .busy answer, by simp, by simp⟩

/-- Settles O18: one case per step of the check order of R4. -/
theorem handleChecksComeInOrder : Obligations.HandleChecksComeInOrder := by
  intro p c h amount answer i s may row
  obtain ⟨ok, names, outside, inside⟩ := NamesHandle.of_row row
  refine ⟨fun idle => names.refused may (namedRecord_fails ?_), fun serves => ?_⟩
  · simp [clientChecks, firstFailure, may.port, may.session, idle]
  have passes := firstFailure_client may serves
  refine ⟨fun bad => names.refused may (namedRecord_fails ?_), fun handle range answers => ⟨fun stale => ?_,
    fun j r found other => ?_⟩⟩
  · have fails : (handleOk h && ok) = false := by
      obtain above | bad := bad
      · simp [handleOk, above]
      · rw [outside bad, Bool.and_false]
    rw [firstFailure_append, passes, fails]
    rfl
  · obtain rfl := inside range answers
    exact names.refused may (namedRecord_stale passes (decide_eq_true handle) (named_stale stale))
  · obtain rfl := inside range answers
    exact names.refused may (namedRecord_notOwner passes found (decide_eq_false other))

/-! ## ANSWER to a record without a notice (R89, R96) -/

theorem NamesOwn.ownRecord (own : NamesOwn p c h j r s) : ownRecord p c h true s = .ok (j, r) :=
  ownRecord_ok own.may own.serves own.names.handle own.names.record own.owner

theorem answerAct_tooLate (own : NamesOwn p c h j r s) (expired : r.phase = .retired .revokedTimeout) (k : AnswerKind) :
    answerAct k true p c h s = (s, { result := .tooLate }) := by
  simp only [answerAct, own.ownRecord, expired, refuse]

theorem answerAct_badState (own : NamesOwn p c h j r s) (without : r.notice? = none)
    (other : r.phase ≠ .retired .revokedTimeout) (k : AnswerKind) :
    answerAct k true p c h s = (s, { result := .badState }) := by
  simp only [answerAct, own.ownRecord]
  split
  next n noticed => simp [Record.notice?, noticed] at without
  next expired => exact absurd expired other
  next => rfl

/-- The three answers are one action, by the kind of the answer. -/
theorem exec_answer (row : i = .answerAck p c h ∨ i = .answerNak p c h ∨ i = .answerBusy p c { handle := h, answer := 2 }) :
    ∃ k, ∀ s, exec i s = command p i (answerAct k true p c h) s := by
  obtain rfl | rfl | rfl := row <;> exact ⟨_, fun _ => rfl⟩

/-- Settles O31: the phase of a record without a notice decides. -/
theorem lateAnswersAreRefused : Obligations.LateAnswersAreRefused := by
  intro p c h i r a s row own without
  obtain ⟨k, runs⟩ := exec_answer row
  exact ⟨fun expired => refused_only_answers own.may.settled (runs s) (answerAct_tooLate own expired k),
    fun other => refused_only_answers own.may.settled (runs s) (answerAct_badState own without other k)⟩

/-! ## READ_SETTING (R155) -/

variable {key index : Byte} {k : SettingKey}

theorem readSetting_gives (may : SupervisorMayAct p c s) (known : keyOf key = some k) (inside : indexOk k index = true) :
    OnlyAnswers p (.readSetting p c key index)
      { result := .ok, payload := halfBytes (BitVec.ofNat 16 (readKey k index s)) } s := by
  refine refused_only_answers (f := readSettingAct p c key index) may.settled rfl ?_
  simp only [readSettingAct, may.sends, Bool.not_true, Bool.false_eq_true, if_false, known, inside, if_true, taken,
    byte2_eq_halfBytes]

theorem readSetting_refuses (may : SupervisorMayAct p c s) (missing : ∀ k, keyOf key = some k → indexOk k index = false) :
    OnlyAnswers p (.readSetting p c key index) { result := .range } s := by
  refine refused_only_answers (f := readSettingAct p c key index) may.settled rfl ?_
  cases known : keyOf key with
  | none => simp [readSettingAct, may.sends, known, refuse]
  | some k => simp [readSettingAct, may.sends, known, missing k known, refuse]

theorem tierOf_of_toNat {k : Tier} (named : index.toNat = k.val) : tierOf index = k := by
  rw [tierOf, named]
  exact Fin.ofNat_val_eq_self k

/-- A key byte outside Table 55 names no key. -/
theorem keyOf_unknown (unknown : key = 0 ∨ (0x08 ≤ key.toNat ∧ key.toNat ≤ 0x0F) ∨ 0x17 ≤ key.toNat) :
    keyOf key = none := by
  have value : key.toNat = 0 ∨ (0x08 ≤ key.toNat ∧ key.toNat ≤ 0x0F) ∨ 0x17 ≤ key.toNat :=
    unknown.imp_left fun zero => by rw [zero]; rfl
  unfold keyOf
  split
  case h_15 => rfl
  all_goals omega

/-- Settles O36: the key gives the field that is read, and the index is in its range or not. -/
theorem readSettingReturnsTheValue : Obligations.ReadSettingReturnsTheValue := by
  intro p c index s may gives refuses
  have plain (key : Byte) (k : SettingKey) (known : keyOf key = some k) (single : indexOk k index = decide (index.toNat = 0)) :
      (index = 0 → gives key (readKey k index s)) ∧ (index ≠ 0 → refuses key) := by
    refine ⟨fun zero => readSetting_gives may known (by rw [single, zero]; rfl), fun other =>
      readSetting_refuses may fun k' known' => ?_⟩
    cases known.symm.trans known'
    rw [single, decide_eq_false]
    exact fun zero => other (BitVec.eq_of_toNat_eq zero)
  have perChannel (key : Byte) (k : ChannelKey) (known : keyOf key = some (.channel k)) :
      (∀ n : ChannelId, index.toNat = n.val → gives key ((s.channel n).profile.get k)) ∧
        (23 < index.toNat → refuses key) := by
    refine ⟨fun n named => ?_, fun above => readSetting_refuses may fun k' known' => ?_⟩
    · have value : readKey (.channel k) index s = (s.channel n).profile.get k := by
        rw [readKey, channelOf_of_toNat named]
      exact value ▸ readSetting_gives may known (channelOk_of_toNat named)
    · cases known.symm.trans known'
      exact decide_eq_false above.not_ge
  obtain ⟨cap, cap'⟩ := plain 0x02 .budgetCap rfl rfl
  obtain ⟨reserve, reserve'⟩ := plain 0x03 .reserve0 rfl rfl
  obtain ⟨settle, settle'⟩ := plain 0x04 .tierSettle rfl rfl
  obtain ⟨notice, notice'⟩ := plain 0x05 .noticeTime rfl rfl
  obtain ⟨busy, busy'⟩ := plain 0x06 .busyLimit rfl rfl
  obtain ⟨mask, mask'⟩ := plain 0x07 .eventMask rfl rfl
  obtain ⟨enable, enable'⟩ := perChannel 0x10 .enable rfl
  obtain ⟨ceiling, ceiling'⟩ := perChannel 0x11 .ceiling rfl
  obtain ⟨start, start'⟩ := perChannel 0x12 .startTime rfl
  obtain ⟨discharge, discharge'⟩ := perChannel 0x13 .discharge rfl
  obtain ⟨cooldown, cooldown'⟩ := perChannel 0x14 .cooldown rfl
  obtain ⟨lockout, lockout'⟩ := perChannel 0x15 .lockout rfl
  obtain ⟨clean, clean'⟩ := perChannel 0x16 .clean rfl
  refine ⟨fun k named => ?_, fun above => readSetting_refuses may fun k known => ?_,
    fun zero => ⟨cap zero, reserve zero, settle zero, notice zero, busy zero, mask zero⟩,
    fun other => ⟨cap' other, reserve' other, settle' other, notice' other, busy' other, mask' other⟩,
    fun n named => ⟨enable n named, ceiling n named, start n named, discharge n named, cooldown n named, lockout n named,
      clean n named⟩,
    fun above => ⟨enable' above, ceiling' above, start' above, discharge' above, cooldown' above, lockout' above,
      clean' above⟩,
    fun key unknown => readSetting_refuses may fun k known => ?_⟩
  · have value : readKey .tierBudget index s = s.settings.tierBudget[k] := by
      simp only [readKey, tierOf_of_toNat named]
    have inside : indexOk .tierBudget index = true := decide_eq_true (by omega)
    exact value ▸ readSetting_gives (key := 0x01) may rfl inside
  · cases known
    exact decide_eq_false above.not_ge
  · cases (keyOf_unknown unknown).symm.trans known

/-! ## The checks of the supervisor commands (R4, R24, R108, R125, R134, R156) -/

theorem write_onlyAnswers {value : Half} (may : SupervisorMayAct p c s)
    (fails : writeAct p c key index value s = (s, { result := e })) :
    OnlyAnswers p (writeOf p c key index value) { result := e } s := by
  refine refused_only_answers may.settled (congrFun (exec_writeOf p c key index value) s) fails

theorem writeAct_unknown {value : Half} (may : SupervisorMayAct p c s) (unknown : keyOf key = none) :
    writeAct p c key index value s = (s, { result := .range }) := by
  simp only [writeAct, may.sends, Bool.not_true, Bool.false_eq_true, if_false, unknown, refuse]

theorem writeAct_fails {value : Half} (may : SupervisorMayAct p c s) (known : keyOf key = some k)
    (fails : firstFailure (writeChecks k index value.toNat s) = some e) :
    writeAct p c key index value s = (s, { result := e }) := by
  simp only [writeAct, may.sends, Bool.not_true, Bool.false_eq_true, if_false, known, checked_of_failure _ fails, refuse]

theorem writableIn_safe (other : k ≠ .eventMask) (safe : s.mode = .safe) : writableIn k s.mode = false := by
  cases k <;> simp_all [writableIn, Mode.notSafe]

theorem writableIn_of (writable : k = .eventMask ∨ s.mode ≠ .safe) : writableIn k s.mode = true := by
  obtain rfl | notSafe := writable
  · rfl
  · have := (Mode.notSafe_iff _).2 notSafe
    cases k <;> simp [writableIn, this]

/-- A channel in use, or named by a record, is not empty (R108). -/
theorem channelEmpty_false {n : ChannelId} (busy : (s.channel n).state.drives = true ∨ (s.channel n).state = .stopping ∨
      (s.channel n).state = .faulted ∨ ∃ j r, (s.slot j).record = some r ∧ r.channel = n) : channelEmpty n s = false := by
  refine Bool.eq_false_iff.2 fun empty => ?_
  obtain ⟨state, none⟩ := channelFree_of_channelEmpty empty
  obtain drives | stopping | faulted | ⟨j, r, record, named⟩ := busy
  · obtain st | st | st := state <;> rw [st] at drives <;> cases drives
  · obtain st | st | st := state <;> cases st.symm.trans stopping
  · obtain st | st | st := state <;> cases st.symm.trans faulted
  · exact none j r record named

theorem forceRetire_onlyAnswers (may : SupervisorMayAct p c s)
    (fails : namedRecord [(supervisorMaySend p c, .denied), (s.mode.serves, .mode)] true h (fun _ => true) s = .error e) :
    OnlyAnswers p (.forceRetire p c h) { result := e } s :=
  refused_only_answers (f := forceRetireAct p c h) may.settled rfl (by simp only [forceRetireAct, fails, refuse])

theorem clientOf_of_toNat {b : Byte} {d : ClientId} (named : b.toNat = d.val) : clientOf b = d := by
  rw [clientOf, named]
  exact Fin.ofNat_val_eq_self d

theorem sessionFieldOk_of_toNat {b : Byte} {d : ClientId} (named : b.toNat = d.val) (other : d ≠ 0) :
    sessionFieldOk b = true := by
  have positive : d.val ≠ 0 := fun zero => other (Fin.ext zero)
  have := d.isLt
  simp only [sessionFieldOk, within_eq, decide_eq_true_eq]
  omega

/-- The checks of CLOSE_CLIENT after the port test. -/
def closeOrder (b : Byte) (s : State) : List (Bool × Result) :=
  [(s.mode.notSafe, .mode), (sessionFieldOk b, .range), ((s.client (clientOf b)).isOpen, .badState)]

theorem closeClient_onlyAnswers {b : Byte} (may : SupervisorMayAct p c s) (fails : firstFailure (closeOrder b s) = some e) :
    OnlyAnswers p (.closeClient p c b) { result := e } s :=
  supervisor_onlyAnswers (rest := closeOrder b) may rfl fails

theorem unlock_onlyAnswers {b : Byte} (may : SupervisorMayAct p c s) (fails : firstFailure (unlockOrder b s) = some e) :
    OnlyAnswers p (.unlockChannel p c b) { result := e } s :=
  supervisor_onlyAnswers (rest := unlockOrder b) may rfl fails

/-- Settles O19: one case per step of each check order. -/
theorem supervisorChecksComeInOrder : Obligations.SupervisorChecksComeInOrder := by
  intro p c s may
  have safeMode (safe : s.mode = .safe) : s.mode.notSafe = false := by rw [safe]; rfl
  have openMode (notSafe : s.mode ≠ .safe) : s.mode.notSafe = true := (Mode.notSafe_iff _).2 notSafe
  refine ⟨fun key index value => ⟨fun unknown => write_onlyAnswers may (writeAct_unknown may unknown),
      fun k known => ⟨fun other safe => ?writeMode, fun writable outside => ?writeRange⟩,
      fun k n known notSafe named inside busy => ?writeBusy⟩,
    fun h => ⟨fun idle => ?retireMode, fun serves above => ?retireRange, fun serves inside stale => ?retireStale⟩,
    fun b => ⟨fun safe => ?closeMode, fun notSafe outside => ?closeRange, fun notSafe d other named shut => ?closeShut⟩,
    fun b => ⟨fun safe => ?unlockMode, fun notSafe above => ?unlockRange⟩⟩
  case writeMode =>
    refine write_onlyAnswers may (writeAct_fails may known ?_)
    rw [writeChecks, writableIn_safe other safe]
    rfl
  case writeRange =>
    refine write_onlyAnswers may (writeAct_fails may known ?_)
    have range : (indexOk k index && valueOk k value.toNat) = false :=
      Bool.eq_false_iff.2 fun both => outside (Bool.and_eq_true_iff.1 both)
    rw [writeChecks, writableIn_of writable, range]
    rfl
  case writeBusy =>
    refine write_onlyAnswers may (writeAct_fails may known ?_)
    have target : targetEmpty (.channel k) index s = false := by
      rw [targetEmpty, channelOf_of_toNat named, channelEmpty_false busy]
    have range : (indexOk (.channel k) index && valueOk (.channel k) value.toNat) = true := by
      rw [indexOk, valueOk, channelOk_of_toNat named, inside]
      rfl
    rw [writeChecks, writableIn_of (.inr notSafe), range, target]
    rfl
  case retireMode =>
    exact forceRetire_onlyAnswers may (namedRecord_fails (by rw [may.sends, idle]; rfl))
  case retireRange =>
    exact forceRetire_onlyAnswers may (namedRecord_range (by rw [may.sends, serves]; rfl) (decide_eq_false above.not_ge))
  case retireStale =>
    exact forceRetire_onlyAnswers may
      (namedRecord_stale (by rw [may.sends, serves]; rfl) (decide_eq_true inside) (named_stale stale))
  case closeMode => exact closeClient_onlyAnswers may (by rw [closeOrder, safeMode safe]; rfl)
  case closeRange =>
    have range : sessionFieldOk b = false := by
      simp only [sessionFieldOk, within_eq, decide_eq_false_iff_not]
      obtain rfl | above := outside
      · decide
      · omega
    exact closeClient_onlyAnswers may (by rw [closeOrder, openMode notSafe, range]; rfl)
  case closeShut =>
    refine closeClient_onlyAnswers may ?_
    rw [closeOrder, openMode notSafe, sessionFieldOk_of_toNat named other, clientOf_of_toNat named, shut]
    rfl
  case unlockMode => exact unlock_onlyAnswers may (by rw [unlockOrder, safeMode safe]; rfl)
  case unlockRange =>
    have range : channelOk b = false := decide_eq_false above.not_ge
    exact unlock_onlyAnswers may (by rw [unlockOrder, openMode notSafe, range]; rfl)

end Sys2Proof.Machine
end

section
/-! PROOF. O20, O21, O22: REQUEST. Its entry and its own checks decide whether it is refused; one that passes them is
admitted where it fits, and else queued or turned away (R55 to R60). -/

namespace Sys2Proof.Machine

/- One proof after another: side by side they need more memory than the check allows. -/
set_option Elab.async false

variable {s t : State} {p : PortId} {c : ClientId} {i : SlotId} {a : Ask} {e : Result}

/-! ## The fields of a payload (R55, R173) -/

variable {channel : Byte} {amount : Half} {cls flags : Byte} {lease : Quad} {floor timeout tag : Half}

/-- The fields of a REQUEST are in their ranges; an absent field has none. -/
def askInRange (channel : Byte) (amount : Half) (cls flags : Byte) (lease : Quad) (floor timeout : Half) : Prop :=
  channel.toNat ≤ 23 ∧ 1 ≤ amount.toNat ∧ amount.toNat ≤ 2500 ∧ cls.toNat ≤ 3 ∧ flags.toNat ≤ 0x0F ∧
    (flags.getLsbD 0 = true → 100 ≤ lease.toNat ∧ lease.toNat ≤ 600000) ∧
    (flags.getLsbD 2 = true → 1 ≤ floor.toNat ∧ floor.toNat < amount.toNat) ∧
    (flags.getLsbD 3 = true → 10 ≤ timeout.toNat ∧ timeout.toNat ≤ 60000)

/-- What the fields of a REQUEST ask for. -/
def askFields (channel : Byte) (amount : Half) (cls flags : Byte) (lease : Quad) (floor timeout tag : Half) : Ask :=
  { channel := channelOf channel, amount := amount.toNat, cls := Fin.ofNat 4 cls.toNat,
    kind := if flags.getLsbD 0 then .leased lease.toNat else .standing,
    floor := if flags.getLsbD 2 then some floor.toNat else none,
    wait := flags.getLsbD 1,
    timeout := if flags.getLsbD 3 then some timeout.toNat else none,
    tag := tag }

/-- A REQUEST asks for what its fields say, where they are in their ranges, and for nothing where one is not. -/
theorem askOf_eq_some_iff : askOf channel amount cls flags lease floor timeout tag = some a ↔
    askInRange channel amount cls flags lease floor timeout ∧
      askFields channel amount cls flags lease floor timeout tag = a := by
  unfold askOf askInRange
  dsimp only
  rw [Option.ite_none_right_eq_some, Option.some_inj]
  refine and_congr_left' ?_
  simp only [channelOk, within_eq, Bool.and_eq_true, Bool.or_eq_true, Bool.not_eq_true', decide_eq_true_eq,
    ← Bool.not_eq_true, ← imp_iff_not_or, and_assoc]
  have below : floor.toNat ≤ amount.toNat - 1 ∧ 1 ≤ amount.toNat ↔ floor.toNat < amount.toNat ∧ 1 ≤ amount.toNat := by omega
  refine and_congr_right fun _ => and_congr_right fun least => and_congr_right fun _ => and_congr_right fun _ =>
    and_congr (by omega) (and_congr_right fun _ => and_congr_left fun _ => imp_congr_right fun _ =>
      and_congr_right fun _ => by omega)

/-- An ask, field by field. -/
theorem askFields_eq_iff (channelIn : channel.toNat ≤ 23) (clsIn : cls.toNat ≤ 3) :
    askFields channel amount cls flags lease floor timeout tag = a ↔
      a.channel.val = channel.toNat ∧ a.amount = amount.toNat ∧ a.cls.val = cls.toNat ∧
        a.kind = (if flags.getLsbD 0 then .leased lease.toNat else .standing) ∧ a.wait = flags.getLsbD 1 ∧
        a.floor = (if flags.getLsbD 2 then some floor.toNat else none) ∧
        a.timeout = (if flags.getLsbD 3 then some timeout.toNat else none) ∧ a.tag = tag := by
  have channelVal : (channelOf channel).val = channel.toNat := Nat.mod_eq_of_lt (by omega)
  have clsVal : (Fin.ofNat 4 cls.toNat).val = cls.toNat := Nat.mod_eq_of_lt (by omega)
  constructor
  · rintro rfl
    exact ⟨channelVal, rfl, clsVal, rfl, rfl, rfl, rfl, rfl⟩
  · obtain ⟨n, m, k, kind, f, w, o, g⟩ := a
    rintro ⟨hn, rfl, hk, rfl, rfl, rfl, rfl, rfl⟩
    rw [askFields, Fin.ext (channelVal.trans hn.symm), Fin.ext (clsVal.trans hk.symm)]

/-! ## The check order (R56) -/

theorem requestAct_refused (fails : (firstFailure (clientChecks p c s.mode.serves s)).or
      (firstFailure (requestChecks c a s)) = some e) : requestAct p c (some a) s = (s, { result := e }) := by
  unfold requestAct
  cases entry : firstFailure (clientChecks p c s.mode.serves s) with
  | some e' =>
    rw [entry] at fails
    cases fails
    rfl
  | none =>
    rw [entry, Option.none_or] at fails
    simp only [fails, refuse]

/-- A REQUEST without an ask is RANGE where it passes its entry. -/
theorem requestAct_outOfRange (fails : firstFailure (clientChecks p c s.mode.serves s ++ [(false, .range)]) = some e) :
    requestAct p c none s = (s, { result := e }) := by
  rw [firstFailure_append] at fails
  unfold requestAct
  cases entry : firstFailure (clientChecks p c s.mode.serves s) with
  | some e' =>
    rw [entry] at fails
    cases fails
    rfl
  | none =>
    rw [entry] at fails
    cases fails
    rfl

theorem requestAct_passes (entry : firstFailure (clientChecks p c s.mode.serves s) = none)
    (passes : firstFailure (requestChecks c a s) = none) (lowest : lowestFree s = some i) :
    requestAct p c (some a) s = decideRequest i c a s := by
  simp only [requestAct, entry, passes, lowest]

theorem fitsNow_eq_false (unfit : ¬ FitsNow a s) : fitsNow a s = false :=
  Bool.eq_false_iff.2 fun fits => unfit ((fitsNow_iff a s).1 fits)

theorem decideRequest_fits (fits : FitsNow a s) :
    decideRequest i c a s = (admitRequest i c a s, admittedReply i (admitRequest i c a s)) := by
  simp only [decideRequest, (fitsNow_iff a s).2 fits, if_true]

theorem decideRequest_noRoom (unfit : ¬ FitsNow a s) (mayNotWait : a.wait = false) :
    decideRequest i c a s = (s, { result := .noRoom }) := by
  simp [decideRequest, fitsNow_eq_false unfit, mayNotWait, refuse]

theorem decideRequest_qFull (unfit : ¬ FitsNow a s) (mayWait : a.wait = true) (full : 16 ≤ s.waitQueue.length) :
    decideRequest i c a s = (s, { result := .qFull }) := by
  simp [decideRequest, fitsNow_eq_false unfit, mayWait, full, refuse]

theorem decideRequest_waits (unfit : ¬ FitsNow a s) (mayWait : a.wait = true) (room : s.waitQueue.length < 16) :
    decideRequest i c a s = (queueRequest i c a s, queuedReply i (queueRequest i c a s)) := by
  simp [decideRequest, fitsNow_eq_false unfit, mayWait, room]

/-- The check order of REQUEST in the words of R56. -/
def requestOrder (p : PortId) (c : ClientId) (a : Ask) (s : State) : List (Bool × Result) :=
  clientChecks p c s.mode.serves s ++
    [(decide ((s.client c).best ≤ a.cls.val), .rights),
     (channelAvailable a.wait (s.channel a.channel).state, .chUnavail),
     (decide (a.amount ≤ (s.channel a.channel).profile.ceiling), .range),
     (decide ((s.client c).held + a.amount ≤ (s.client c).quota), .quota),
     (decide ((s.client c).occupied < (s.client c).limit), .limit),
     (decide (∃ j, (s.slot j).record = none), .tableFull)]

theorem firstFailure_requestOrder (p : PortId) (c : ClientId) (a : Ask) (s : State) :
    firstFailure (requestOrder p c a s) =
      (firstFailure (clientChecks p c s.mode.serves s)).or (firstFailure (requestChecks c a s)) := by
  rw [requestOrder, firstFailure_append, requestChecks, lowestFree_isSome]

/-- A REQUEST that passes its check order has a FREE slot to take. -/
theorem requestAct_of_order (passes : firstFailure (requestOrder p c a s) = none) :
    ∃ i, requestAct p c (some a) s = decideRequest i c a s := by
  rw [firstFailure_requestOrder, Option.or_eq_none_iff] at passes
  obtain ⟨entry, checks⟩ := passes
  have free : (lowestFree s).isSome = true :=
    firstFailure_eq_none.1 checks ((lowestFree s).isSome, .tableFull) (by simp [requestChecks])
  obtain ⟨i, lowest⟩ := Option.isSome_iff_exists.1 free
  exact ⟨i, requestAct_passes entry checks lowest⟩

/-- Settles O22: the ranges, the check order, and what decides for a request that has passed it. -/
theorem requestIsTurnedAway : Obligations.RequestIsTurnedAway := by
  intro p c channel amount cls flags lease floor timeout tag s
  refine ⟨fun a => askOf_eq_some_iff.trans (and_congr_right fun inside => askFields_eq_iff inside.1 inside.2.2.2.1),
    fun settled => ?_⟩
  dsimp only
  cases asks : askOf channel amount cls flags lease floor timeout tag with
  | none => exact fun e fails => refused_only_answers settled rfl (asks ▸ requestAct_outOfRange fails)
  | some a =>
    have act {x : State × Reply} (done : requestAct p c (some a) s = x) :
        requestAct p c (askOf channel amount cls flags lease floor timeout tag) s = x := asks ▸ done
    refine ⟨fun e fails => ?_, fun passes unfit mayNotWait => ?_, fun passes unfit mayWait full => ?_⟩
    · exact refused_only_answers settled rfl
        (act (requestAct_refused ((firstFailure_requestOrder p c a s).symm.trans fails)))
    · obtain ⟨i, decides⟩ := requestAct_of_order passes
      exact refused_only_answers settled rfl (act (decides.trans (decideRequest_noRoom unfit mayNotWait)))
    · obtain ⟨i, decides⟩ := requestAct_of_order passes
      exact refused_only_answers settled rfl (act (decides.trans (decideRequest_qFull unfit mayWait full)))

/-! ## Admission at once (R61, R62) -/

/-- The record of a request that is admitted now. -/
def Ask.granted (c : ClientId) (a : Ask) (s : State) : Record :=
  recordOf c a (.live (decide ((s.channel a.channel).state = .on)) (leaseFrom a.kind s) none)

theorem admitRequest_slot (i j : SlotId) (c : ClientId) (a : Ask) (s : State) : (admitRequest i c a s).slot j =
    if j = i then { gen := (s.slot i).gen, record := some (a.granted c s) } else s.slot j :=
  enterLive_slot_eq i j _ _

theorem admitRequest_channel (i : SlotId) (c : ClientId) (a : Ask) (s : State) (m : ChannelId) :
    (admitRequest i c a s).channel m =
      if m = a.channel then (s.channel m).withGrant s.tick a.amount else s.channel m :=
  (enterLive_channel i _ _ m).trans (by rw [Channel.gain_eq]; rfl)

theorem admitRequest_client (i : SlotId) (c : ClientId) (a : Ask) (s : State) (d : ClientId) :
    (admitRequest i c a s).client d =
      if d = c then { s.client d with committed := (s.client d).committed + a.amount,
                                      held := (s.client d).held + a.amount,
                                      occupied := (s.client d).occupied + 1 }
      else s.client d := by
  refine (enterLive_client i (recordOf c a (.live false none none)) (chargeClient c a.amount s) d).trans ?_
  rw [chargeClient_client]
  by_cases own : d = c <;> simp [own, recordOf]

theorem admittedReply_of {r : Record} (record : (t.slot i).record = some r) : admittedReply i t =
    { result := .ok
      payload := byte2 (handleOf i (t.slot i).gen) ++ byte1 (bitAt 0 r.powered + bitAt 1 r.lease?.isSome)
        ++ tickBytes r.lease? } := by
  simp only [admittedReply, record]

theorem admitRequest_untouched (i : SlotId) (c : ClientId) (a : Ask) (s : State) :
    Untouched (fun j => j = i) (fun n => n = a.channel) (fun d => d = c) s (admitRequest i c a s) where
  part := by constructor <;> rfl
  slots j other := by rw [admitRequest_slot, if_neg other]
  channels m other := by rw [admitRequest_channel, if_neg other]
  clients d other := by rw [admitRequest_client, if_neg other]

theorem ClientMayAct.requestAct (may : ClientMayAct p c s) (serves : s.mode.serves = true) (passes : RequestPasses c a s)
    (lowest : LowestFree i s) : requestAct p c (some a) s = decideRequest i c a s :=
  requestAct_passes (firstFailure_client may serves) (requestChecks_pass passes (lowestFree_of lowest)) (lowestFree_of lowest)

/-- Settles O20: `decideRequest` admits a request that fits, and the response is read off the record that it makes. -/
theorem requestIsAdmittedAtOnce : Obligations.RequestIsAdmittedAtOnce := by
  intro p c channel amount cls flags lease floor timeout tag a i s may asks passes lowest fits powered due
  have serves : s.mode.serves = true := by rw [fits.run]; rfl
  have leased : leaseFrom a.kind s = due := by cases kind : a.kind <;> simp [due, kind, leaseFrom, deadlineIn]
  have slot : (admitRequest i c a s).slot i = { gen := (s.slot i).gen, record := some (a.granted c s) } := by
    rw [admitRequest_slot, if_pos rfl]
  have record : a.granted c s = recordOf c a (.live powered due none) := by rw [Ask.granted, leased]
  have reply := admittedReply_of (congrArg Slot.record slot)
  rw [slot, record] at reply
  have act := (may.requestAct serves passes lowest).trans (decideRequest_fits fits)
  rw [reply, ← asks] at act
  refine takes_of rfl may.settled act ⟨rfl, rfl, rfl⟩ fun u part body => ⟨?_, body.admission, body.committed, ?_, ?_,
    body.waitQueue, ShedAndFlagsKept.same (t := admitRequest i c a s) ⟨rfl, rfl, rfl, rfl⟩ body,
    (admitRequest_untouched i c a s).same part body⟩
  · rw [body.slot, slot, record]
    rfl
  · rw [body.channel, admitRequest_channel, if_pos rfl]
  · rw [body.client, admitRequest_client, if_pos rfl]

/-! ## Queueing (R64) -/

theorem queuedReply_of {r : Record} (record : (t.slot i).record = some r) : queuedReply i t =
    { result := .queued
      payload := byte2 (handleOf i (t.slot i).gen) ++ byte1 (bitAt 2 r.wait?.isSome) ++ tickBytes r.wait? } := by
  simp only [queuedReply, record]

theorem queueRequest_untouched (i : SlotId) (c : ClientId) (a : Ask) (s : State) :
    Untouched (fun j => j = i) (fun n => n = a.channel) (fun d => d = c) s (queueRequest i c a s) where
  part := by constructor <;> rfl
  slots j other := by rw [queueRequest_slot, if_neg other]
  channels m other := by rw [queueRequest_channel, if_neg other]
  clients d other := by rw [queueRequest_client, if_neg other]

/-- Settles O21: as for an admission, with the record's place in the wait queue. -/
theorem requestIsQueued : Obligations.RequestIsQueued := by
  intro p c channel amount cls flags lease floor timeout tag a i s may serves asks passes lowest unfit mayWait room due
  have slot : (queueRequest i c a s).slot i = { gen := (s.slot i).gen, record := some (recordOf c a (.queued due)) } := by
    rw [queueRequest_slot, if_pos rfl]
    rfl
  have reply := queuedReply_of (congrArg Slot.record slot)
  rw [slot] at reply
  have act := (may.requestAct serves passes lowest).trans (decideRequest_waits unfit mayWait room)
  rw [reply, ← asks] at act
  refine takes_of rfl may.settled act ⟨rfl, rfl, rfl⟩ fun u part body => ⟨?_, body.waitQueue, ?_, ?_, body.admission,
    body.committed, ShedAndFlagsKept.same (t := queueRequest i c a s) ⟨rfl, rfl, rfl, rfl⟩ body,
    (queueRequest_untouched i c a s).same part body⟩
  · rw [body.slot, slot]
    rfl
  · rw [body.channel, queueRequest_channel, if_pos rfl]
  · rw [body.client, queueRequest_client, if_pos rfl]

end Sys2Proof.Machine
end

section
/-! PROOF. O45, O46, O55, O56, O52: the safe entries and RESTART, the line events that a state ignores, what posting a kind
does, and what a power-good does. -/

namespace Sys2Proof.Machine

/- One proof after another: side by side they need more memory than the check allows. -/
set_option Elab.async false

variable {s t u : State} {p : PortId} {c : ClientId} {i : Instr} {j : SlotId} {r : Record} {n m : ChannelId} {x : Channel}

/-! ## Stopping a channel (R116, R128) -/

theorem Channel.stop_drives (now : Tick) (drives : x.state.drives = true) : x.stop now =
    if x.profile.discharge = 0 then x.enter .off none
    else x.enter .stopping (some (.discharge, now + BitVec.ofNat 32 x.profile.discharge)) := by
  unfold Channel.stop
  cases st : x.state <;> simp [st, ChannelState.drives] at drives ⊢

theorem Channel.stop_idle (now : Tick) (idle : x.state.drives = false) : x.stop now = x := by
  unfold Channel.stop
  cases st : x.state <;> simp [st, ChannelState.drives] at idle ⊢

/-! ## The bulk clearing (R151) -/

/-- The part after a bulk clearing that leaves this controller state, these flags, these SAFE_N levels and this mark of a
safe entry that is due. -/
def clearedTo (mode : Mode) (flags : BitVec 7) (held pin due : Bool) (s : State) : State :=
  { bulkClear s with mode := mode, flags := flags, safeHeld := held, safePin := pin, resetSafe := due }

theorem Slot.cleared_gen (x : Slot) : x.cleared.gen = if x.record = none then x.gen else x.gen + 1 := by
  obtain ⟨gen, _ | r⟩ := x <;> rfl

theorem clearedTo_cleared (mode : Mode) (flags : BitVec 7) (held pin due : Bool) (s : State) :
    Cleared s (clearedTo mode flags held pin due s) := by
  have channel (n : ChannelId) : (clearedTo mode flags held pin due s).channel n = (s.channel n).cleared s.tick :=
    bulkClear_channel s n
  constructor
  case slots =>
    intro i
    change ((bulkClear s).slot i).record = none ∧ ((bulkClear s).slot i).gen = _
    rw [bulkClear_slot]
    exact ⟨Slot.cleared_record _, Slot.cleared_gen _⟩
  case clients => exact bulkClear_client s
  case channels =>
    intro n
    have kept := ChannelKept.stop s.tick (s.channel n)
    rw [channel]
    exact ⟨⟨kept.profile, kept.faultCount, kept.cause, kept.pg, kept.fltN⟩, rfl, rfl, rfl⟩
  case stopped =>
    intro n drives
    rw [channel, Channel.cleared, Channel.stop_drives s.tick drives]
    split <;> exact ⟨rfl, rfl, rfl⟩
  case others =>
    intro n idle
    rw [channel, Channel.cleared, Channel.stop_idle s.tick idle]
    exact ⟨rfl, rfl, rfl⟩
  all_goals rfl

theorem Cleared.same (h : Cleared s t) (part : SamePart t u) (body : SameBody t u) : Cleared s u where
  slots i := body.slot i ▸ h.slots i
  admission := body.admission.trans h.admission
  committed := body.committed.trans h.committed
  waitQueue := body.waitQueue.trans h.waitQueue
  shed := body.shed.trans h.shed
  shedList := body.shedList.trans h.shedList
  relief := body.relief.trans h.relief
  clients c := (body.client c).trans (h.clients c)
  channels n := body.channel n ▸ h.channels n
  stopped n := body.channel n ▸ h.stopped n
  others n := body.channel n ▸ h.others n
  tick := part.tick.trans h.tick
  settleTimer := part.settleTimer.trans h.settleTimer
  selected := part.selected.trans h.selected
  pendingTier := part.pendingTier.trans h.pendingTier
  budget := part.budget.trans h.budget
  settings := part.settings.trans h.settings
  address := part.address.trans h.address
  tierLines := part.tierLines.trans h.tierLines
  addrPin := part.addrPin.trans h.addrPin
  pending := part.pending.trans h.pending

/-! ## The safe entries (R152) -/

/-- The part after the safe entry that a reset left due. -/
theorem resetEntry_due (due : s.resetSafe = true) :
    resetEntry s = clearedTo .safe (s.flags ||| 0x40) s.safeHeld s.safePin false s := if_pos due

theorem takeSafeFall_outside (notSafe : s.mode ≠ .safe) :
    takeSafeFall s = clearedTo .safe (s.flags ||| 0x40) false false s.resetSafe s := if_neg notSafe

theorem takeSafeFall_safe (safe : s.mode = .safe) : takeSafeFall s = { s with safeHeld := false, safePin := false } :=
  if_pos safe

theorem enterSafeAct_ok (may : SupervisorMayAct p c s) (notSafe : s.mode ≠ .safe) :
    enterSafeAct p c s = (clearedTo .safe (s.flags ||| 0x40) s.safeHeld s.safePin s.resetSafe s, { result := .ok }) :=
  supervisor_checked (rest := fun s => [(s.mode.notSafe, .mode)]) may _
    (by rw [(Mode.notSafe_iff _).2 notSafe]; rfl)

theorem enterSafe_mode (may : SupervisorMayAct p c s) (safe : s.mode = .safe) :
    OnlyAnswers p (.enterSafe p c) { result := .mode } s :=
  supervisor_onlyAnswers (rest := fun s => [(s.mode.notSafe, .mode)]) may rfl (by rw [safe]; rfl)

/-- What a bulk clearing leaves, up to the response and the lines. -/
theorem clearedTo_same {mode : Mode} {flags : BitVec 7} {held pin due : Bool}
    (part : SamePart (clearedTo mode flags held pin due s) u) (body : SameBody (clearedTo mode flags held pin due s) u) :
    (Cleared s u ∧ u.mode = mode ∧ u.flags = flags) ∧ u.safeHeld = held ∧ u.safePin = pin ∧ u.resetSafe = due :=
  ⟨⟨(clearedTo_cleared ..).same part body, part.mode, body.flags⟩, part.safeHeld, part.safePin, part.resetSafe⟩

theorem resetEntry_shape (due : s.resetSafe = true) :
    (Cleared s (resetEntry s) ∧ (resetEntry s).mode = .safe ∧ (resetEntry s).flags = s.flags ||| 0x40) ∧
      (resetEntry s).safeHeld = s.safeHeld ∧ (resetEntry s).safePin = s.safePin ∧ (resetEntry s).resetSafe = false := by
  rw [resetEntry_due due]
  exact clearedTo_same (.refl _) (by constructor <;> rfl)

/-- An event taken as a claim is the event on the part after the safe entry that is due. -/
theorem claim_resetEntry (f : State → State) (s : State) : claim f s = claim f (resetEntry s) := by
  simp only [claim, resetEntry_idem]

theorem command_first {code : Byte} {payload : List Byte} (parts : commandParts i = some (p, c, code, payload)) (s : State) :
    exec i s = exec i (resetEntry s) := by
  obtain ⟨f, row⟩ := commandRow parts
  rw [row.runs, row.runs, ← command_resetEntry]

theorem settleExpiry_first {d : Tick} (due : s.resetSafe = true) (armed : s.settleTimer = some d)
    (expired : dueAt s.tick d = true) : exec .settleExpiry s = exec .settleExpiry (resetEntry s) := by
  have armed' : (resetEntry s).settleTimer = some d := by rw [resetEntry_due due]; exact armed
  have expired' : dueAt (resetEntry s).tick d = true := by rw [resetEntry_due due]; exact expired
  rw [exec_settleExpiry_due armed expired, exec_settleExpiry_due armed' expired', ← claim_resetEntry]

/-- A line change that the state does not take is no claim: a safe entry that is due stays due. -/
theorem ignored_keeps_due (idle : (s.channel n).state.drives = false)
    (line : i = .powerGood n ∨ i = .powerLoss n ∨ i = .trip n ∨ i = .fltRise n) :
    ∃ t, exec i s = .next t ∧ t.mode = s.mode ∧ t.resetSafe = s.resetSafe ∧ t.flags = s.flags := by
  have ignored (takes : ChannelState → Bool) (level f : State → State) (out : takes (s.channel n).state = false) :
      lineEvent takes level f n s = .next (level s) := if_neg (by simp [out])
  obtain rfl | rfl | rfl | rfl := line
  · refine ⟨_, ignored (fun st => decide (st = .starting)) _ _ (decide_eq_false fun st => ?_), rfl, rfl, rfl⟩
    rw [st] at idle
    cases idle
  · refine ⟨_, ignored (fun st => decide (st = .on)) _ _ (decide_eq_false fun st => ?_), rfl, rfl, rfl⟩
    rw [st] at idle
    cases idle
  · exact ⟨_, ignored ChannelState.drives _ _ idle, rfl, rfl, rfl⟩
  · exact ⟨_, rfl, rfl, rfl, rfl⟩

/-- Settles O45: each entry is the bulk clearing with its controller state, flags and levels. -/
theorem safeEntryClearsThePart : Obligations.SafeEntryClearsThePart := by
  intro s entered
  refine ⟨fun p c may => ⟨fun notSafe => ?enter, enterSafe_mode may⟩, fun settled notSafe => ?fall, fun due => ?entry,
    fun due => ?first⟩
  case enter =>
    refine takes_of rfl may.settled (enterSafeAct_ok may notSafe) ⟨rfl, rfl, rfl⟩ fun u part body => ?_
    rw [may.settled] at part body
    exact clearedTo_same part body
  case fall =>
    refine happens_of rfl settled (takeSafeFall_outside notSafe) ⟨rfl, rfl, rfl⟩ fun u part body => ?_
    rw [settled] at part body
    exact clearedTo_same part body
  case entry =>
    have runs : exec .resetSafeEntry s = .next (driveLines (resetEntry s)) := claimWhen_arises id s due
    rw [resetEntry_due due] at runs
    exact ⟨_, runs, ⟨rfl, rfl, rfl⟩, driveLines_driven _, clearedTo_same (driveLines_part _) (driveLines_body _)⟩
  case first =>
    obtain ⟨cleared, held, pin, settled⟩ := resetEntry_shape due
    have ports : SamePorts s (resetEntry s) := by
      rw [resetEntry_due due]
      exact ⟨rfl, rfl, rfl⟩
    refine ⟨resetEntry s, cleared, ports, held, pin, settled,
      fun i p c code payload parts => command_first parts s, fun d armed expired => settleExpiry_first due armed expired,
      claim_resetEntry takeSafeFall s, ?_, fun n idle i line => ?_⟩
    · exact (claim_settled takeSafeFall settled).trans (by rw [takeSafeFall_safe cleared.2.1])
    · obtain ⟨t, next, mode, kept, flags⟩ := ignored_keeps_due idle line
      exact ⟨t, next, mode, kept.trans due, flags⟩

/-! ## RESTART (R153) -/

theorem restartAct_ok (may : SupervisorMayAct p c s) (allowed : s.mode ≠ .safe ∨ s.safeHeld = true) :
    restartAct p c s =
      (clearedTo .config (s.flags &&& 0x40) s.safeHeld s.safePin s.resetSafe s, { result := .ok }) := by
  have passes : (s.mode.notSafe || s.safeHeld) = true :=
    Bool.or_eq_true_iff.2 (allowed.imp_left fun notSafe => (Mode.notSafe_iff _).2 notSafe)
  exact supervisor_checked (rest := fun s => [(s.mode.notSafe || s.safeHeld, .mode)]) may _ (by rw [passes]; rfl)

/-- Settles O46: RESTART is the bulk clearing with CONFIG and the one flag that stays. -/
theorem restartReturnsToConfig : Obligations.RestartReturnsToConfig := by
  intro p c s may
  refine ⟨fun allowed => ?_, fun safe low => ?_⟩
  · refine takes_of rfl may.settled (restartAct_ok may allowed) ⟨rfl, rfl, rfl⟩ fun u part body => ?_
    rw [may.settled] at part body
    obtain ⟨⟨cleared, mode, flags⟩, levels⟩ := clearedTo_same part body
    exact ⟨cleared, mode, flags, levels⟩
  · exact supervisor_onlyAnswers (rest := fun s => [(s.mode.notSafe || s.safeHeld, .mode)]) may rfl
      (by rw [safe, low]; rfl)

/-! ## Line events that a state ignores (R110, R119, R152) -/

/-- A line change that the state does not take writes the channel's level and nothing else. -/
theorem level_only (next : exec i s = .next (s.setChannel n x)) : ∃ t, exec i s = .next t ∧ SamePorts s t ∧
    t.channel n = x ∧ ListsKept s t ∧ Untouched (fun _ => False) (fun m => m = n) (fun _ => False) s t :=
  ⟨_, next, ⟨rfl, rfl, rfl⟩, State.channel_setChannel_same .., .setChannel n x s, .setChannel n x s⟩

/-- Settles O55: where the state does not take the line, the event is its level alone. -/
theorem ignoredEventsChangeTheLevelAlone : Obligations.IgnoredEventsChangeTheLevelAlone := by
  intro n s x level
  have ignored (takes : ChannelState → Bool) (write f : State → State) (out : takes x.state = false) :
      lineEvent takes write f n s = .next (write s) := if_neg (by simp [x] at out; simp [out])
  refine ⟨fun other => ?_, fun other => ?_, fun idle => ?_, ?_, ?_, fun settled safe => ?_⟩
  · exact level_only (ignored (fun st => decide (st = .starting)) _ _ (decide_eq_false other))
  · exact level_only (ignored (fun st => decide (st = .on)) _ _ (decide_eq_false other))
  · exact level_only (ignored ChannelState.drives _ _ idle)
  · exact level_only rfl
  · exact ⟨_, rfl, ⟨rfl, rfl, rfl⟩, by constructor <;> rfl, by constructor <;> rfl⟩
  · refine ⟨_, claim_settled takeSafeFall settled, ?_⟩
    rw [takeSafeFall_safe safe]
    exact ⟨⟨rfl, rfl, rfl⟩, by constructor <;> rfl, by constructor <;> rfl⟩

/-! ## Posting a kind (R137, R139) -/

theorem post_of_record (kind : NoticeKind) (record : (s.slot j).record = some r) :
    post j kind s = setKinds j r (r.kinds.merge kind) s := by
  simp only [post, record]

theorem setKinds_client (j : SlotId) (r : Record) (k : KindSet) (s : State) (d : ClientId) :
    (setKinds j r k s).client d =
      if d = r.owner then
        { s.client r.owner with
          notices := if k.isEmpty then Machine.without j (s.client r.owner).notices
            else if r.kinds.isEmpty then (s.client r.owner).notices ++ [j] else (s.client r.owner).notices }
      else s.client d := State.client_setClient _ _ _ _

theorem setKinds_untouched (j : SlotId) (r : Record) (k : KindSet) (s : State) :
    Untouched (fun i => i = j) (fun _ => False) (fun d => d = r.owner) s (setKinds j r k s) where
  part := by constructor <;> rfl
  slots i other := by rw [setKinds_slot, if_neg other]
  channels _ _ := rfl
  clients d other := by rw [setKinds_client, if_neg other]

theorem without_eq (j : SlotId) (l : List SlotId) : without j l = l.filter fun i => decide (i ≠ j) := by
  refine List.filter_congr fun i _ => ?_
  by_cases e : i = j <;> simp [e]

/-- Posting a kind that the set holds, in a set that the rows can give, leaves it (R137). -/
theorem KindSet.merge_held (k : KindSet) (kind : NoticeKind)
    (held : (kind = .admitted ∧ k.admitted = true) ∨ (kind = .ready ∧ k.ready = true ∧ k.admitted = false) ∨
      (kind = .reduce ∧ k.reduce = true ∧ k.withdrawn = false) ∨
      (kind = .withdrawn ∧ k.withdrawn = true ∧ k.reduce = false) ∨
      (kind = .retired ∧ k = { retired := true })) : k.merge kind = k := by
  obtain ⟨admitted, ready, reduce, withdrawn, retired⟩ := k
  obtain ⟨rfl, rfl⟩ | ⟨rfl, rfl, rfl⟩ | ⟨rfl, rfl, rfl⟩ | ⟨rfl, rfl, rfl⟩ | ⟨rfl, e⟩ := held
  · rfl
  · rfl
  · rfl
  · rfl
  · exact e.symm

/-- Settles O56: the merged set, row by row, and the writes of `setKinds`. -/
theorem postedKindsMerge : Obligations.PostedKindsMerge := by
  intro j r kind s record t k
  have posted : t = setKinds j r (k.merge kind) s := post_of_record kind record
  refine ⟨k.merge kind, ?_, ?_, ?_, fun e unread => ?_, fun e read => ?_, ?_, KindSet.merge_held k kind, ?_, ?_,
    posted ▸ ⟨rfl, rfl, rfl, rfl, rfl, rfl, rfl⟩, posted ▸ setKinds_untouched ..⟩
  · rintro rfl
    rfl
  · rintro rfl
    rfl
  · rintro rfl
    rfl
  · rw [e, KindSet.merge, if_pos unread]
  · rw [e, KindSet.merge, if_neg (by simp [read])]
  · rintro rfl
    rfl
  · rw [posted, setKinds_slot, if_pos rfl]
  · rw [posted, setKinds_client, if_pos rfl, without_eq]

/-! ## Power-good (R8, R113, R137) -/

/-- A power-good adds to the notice queue of a record's owner the record whose pending set was empty. -/
theorem markPowered_client (live : r.isLive = true) (d : ClientId) : (markPowered j r s).client d =
    { s.client d with
      notices := if d = r.owner ∧ r.kinds.isEmpty = true then (s.client d).notices ++ [j] else (s.client d).notices } := by
  obtain ⟨p, l, x, phase⟩ := Record.isLive_iff.1 live
  have written : ((s.setRecord j { r with phase := .live true l x }).slot j).record =
    some { r with phase := .live true l x } := by rw [State.slot_setRecord_same]
  have merged : (r.kinds.merge .ready).isEmpty = false := by simp [KindSet.merge, KindSet.isEmpty]
  rw [markPowered_live phase, post_of_record _ written, setKinds_client]
  simp only [merged, State.client_setRecord, Bool.false_eq_true, if_false]
  by_cases owner : d = r.owner
  · subst owner
    by_cases empty : r.kinds.isEmpty = true <;> simp [empty]
  · simp [owner]

theorem markPowered_lists (j : SlotId) (r : Record) (s : State) : ListsKept s (markPowered j r s) := by
  unfold markPowered post
  split
  · split <;> exact ⟨rfl, rfl, rfl, rfl, rfl, rfl, rfl⟩
  · exact ⟨rfl, rfl, rfl, rfl, rfl, rfl, rfl⟩

theorem markPowered_part (j : SlotId) (r : Record) (s : State) : SamePart s (markPowered j r s) := by
  unfold markPowered post
  split
  · split <;> constructor <;> rfl
  · exact .refl s

theorem markPowered_ports (j : SlotId) (r : Record) (s : State) : SamePorts s (markPowered j r s) := by
  unfold markPowered post
  split
  · split <;> exact ⟨rfl, rfl, rfl⟩
  · exact .refl s

theorem ListsKept.trans (a : ListsKept s t) (b : ListsKept t u) : ListsKept s u :=
  ⟨b.admission.trans a.admission, b.committed.trans a.committed, b.waitQueue.trans a.waitQueue,
    b.others.shed.trans a.others.shed, b.others.shedList.trans a.others.shedList, b.others.relief.trans a.others.relief,
    b.others.flags.trans a.others.flags⟩

/-- Every slot of the list holds a live record. -/
def AllLive (l : List SlotId) (s : State) : Prop := ∀ j ∈ l, ∃ r, (s.slot j).record = some r ∧ r.isLive = true

/-- Marking several records, one after another: each joins its owner's notice queue where its pending set was empty. -/
theorem markAll_client {l : List SlotId} (nodup : l.Nodup) (live : AllLive l s) (d : ClientId) :
    (overRecords markPowered l s).client d =
      { s.client d with notices := ((overRecords markPowered l s).client d).notices } ∧
    ∀ j, j ∈ ((overRecords markPowered l s).client d).notices ↔ j ∈ (s.client d).notices ∨
      (j ∈ l ∧ ∃ r, (s.slot j).record = some r ∧ r.owner = d ∧ r.kinds.isEmpty = true) := by
  induction l generalizing s with
  | nil => exact ⟨rfl, by simp [overRecords]⟩
  | cons i rest ih =>
    obtain ⟨out, nodup'⟩ := List.nodup_cons.1 nodup
    obtain ⟨r, record, isLive⟩ := live i List.mem_cons_self
    have others (j : SlotId) (member : j ∈ rest) : (markPowered i r s).slot j = s.slot j :=
      markPowered_slot_other r s (ne_of_mem_of_not_mem member out)
    obtain ⟨same, members⟩ := ih nodup' (s := markPowered i r s) fun j member => by
      rw [others j member]
      exact live j (List.mem_cons_of_mem _ member)
    have first : overRecords markPowered (i :: rest) s = overRecords markPowered rest (markPowered i r s) := by
      simp only [overRecords, record]
    rw [first]
    refine ⟨same.trans (by rw [markPowered_client isLive]), fun j => (members j).trans ?_⟩
    have joined : j ∈ ((markPowered i r s).client d).notices ↔
        j ∈ (s.client d).notices ∨ (j = i ∧ r.owner = d ∧ r.kinds.isEmpty = true) := by
      rw [markPowered_client isLive]
      by_cases joins : d = r.owner ∧ r.kinds.isEmpty = true
      · simp [joins]
      · have : ¬ (r.owner = d ∧ r.kinds.isEmpty = true) := fun both => joins (both.imp_left Eq.symm)
        simp [joins, this]
    have later : (j ∈ rest ∧ ∃ r', ((markPowered i r s).slot j).record = some r' ∧ r'.owner = d ∧ r'.kinds.isEmpty = true) ↔
        (j ∈ rest ∧ ∃ r', (s.slot j).record = some r' ∧ r'.owner = d ∧ r'.kinds.isEmpty = true) :=
      and_congr_right fun member => by rw [others j member]
    have own : (j = i ∧ r.owner = d ∧ r.kinds.isEmpty = true) ↔
        (j = i ∧ ∃ r', (s.slot j).record = some r' ∧ r'.owner = d ∧ r'.kinds.isEmpty = true) :=
      and_congr_right fun e => by simp [e, record]
    rw [joined, later, own, List.mem_cons, or_and_right, or_assoc]

/-- The part after a power-good of a STARTING channel, but for the order counter. -/
theorem comeUp_marks (starting : (s.channel n).state = .starting) : ∃ l, l.Nodup ∧ (∀ j, j ∈ l ↔ j ∈ grantsOf n s) ∧
    comeUp n s = nextOrder (overRecords markPowered l (s.setChannel n ((s.channel n).cameUp s))) :=
  ⟨_, (openOrder_perm ..).nodup_iff.2 (slotsWhere_nodup _ s), fun _ => mem_openOrder, comeUp_starting starting⟩

/-- What a power-good of a STARTING channel does to a client's entry: its notice queue alone. -/
theorem comeUp_client (starting : (s.channel n).state = .starting) (d : ClientId) :
    (comeUp n s).client d = { s.client d with notices := ((comeUp n s).client d).notices } ∧
    ∀ j, j ∈ ((comeUp n s).client d).notices ↔ j ∈ (s.client d).notices ∨
      ∃ r, (s.slot j).record = some r ∧ r.channel = n ∧ r.isLive = true ∧ r.owner = d ∧ r.kinds.isEmpty = true := by
  obtain ⟨l, nodup, members, comes⟩ := comeUp_marks starting
  have live : AllLive l (s.setChannel n ((s.channel n).cameUp s)) := fun j member => by
    obtain ⟨r, record, -, live⟩ := mem_grantsOf.1 ((members j).1 member)
    exact ⟨r, record, live⟩
  obtain ⟨same, joins⟩ := markAll_client nodup live d
  rw [comes]
  refine ⟨same, fun j => (joins j).trans (or_congr Iff.rfl ⟨?_, ?_⟩)⟩
  · rintro ⟨member, r, record, owner, empty⟩
    obtain ⟨r', record', channel, live⟩ := mem_grantsOf.1 ((members j).1 member)
    cases record.symm.trans record'
    exact ⟨r, record, channel, live, owner, empty⟩
  · rintro ⟨r, record, channel, live, owner, empty⟩
    exact ⟨(members j).2 (mem_grantsOf.2 ⟨r, record, channel, live⟩), r, record, owner, empty⟩

/-- What a power-good of a STARTING channel leaves as it was. -/
theorem comeUp_kept (starting : (s.channel n).state = .starting) :
    ListsKept s (comeUp n s) ∧ SamePart s (comeUp n s) ∧ SamePorts s (comeUp n s) := by
  obtain ⟨l, -, -, comes⟩ := comeUp_marks starting
  obtain ⟨lists, part, ports⟩ : ListsKept s (overRecords markPowered l (s.setChannel n ((s.channel n).cameUp s))) ∧
      SamePart s (overRecords markPowered l (s.setChannel n ((s.channel n).cameUp s))) ∧
      SamePorts s (overRecords markPowered l (s.setChannel n ((s.channel n).cameUp s))) :=
    overRecords_keeps (P := fun t => ListsKept s t ∧ SamePart s t ∧ SamePorts s t)
      ⟨.setChannel n _ s, by constructor <;> rfl, rfl, rfl, rfl⟩
      fun i r t _ _ ⟨lists, part, ports⟩ => ⟨lists.trans (markPowered_lists i r t), part.trans (markPowered_part i r t),
        ports.trans (markPowered_ports i r t)⟩
  rw [comes]
  exact ⟨lists.trans ⟨rfl, rfl, rfl, rfl, rfl, rfl, rfl⟩, part.trans (by constructor <;> rfl), ports.trans ⟨rfl, rfl, rfl⟩⟩

/-- Channel `n`, as the power-good finds it: its line has risen, or its sampled event is no longer waiting. -/
def lineRisen (n : ChannelId) (i : Instr) (x : Channel) : Channel :=
  { x with pg := x.pg || decide (i = .powerGood n), sampled := if i = .powerGood n then x.sampled else none }

/-- Both ways to a power-good are a claim that takes it (R110, R113). -/
theorem claims_powerGood (starting : (s.channel n).state = .starting)
    (way : i = .powerGood n ∨ (i = .sampledLineEvent n ∧ (s.channel n).sampled = some .powerGood)) :
    ∃ f, exec i s = claim f s ∧ f s = comeUp n (s.setChannel n (lineRisen n i (s.channel n))) := by
  obtain rfl | ⟨rfl, waits⟩ := way
  · refine ⟨_, if_pos (decide_eq_true starting), ?_⟩
    simp [setPg, lineRisen]
  · refine ⟨_, claimWhen_arises _ s (by rw [waits]; rfl), ?_⟩
    simp [takeSampled, waits, lineRisen]

/-- Settles O52: what a power-good does to the part whose channel `n` is as its line left it. -/
theorem powerGoodPowersTheGrants : Obligations.PowerGoodPowersTheGrants := by
  intro n i s settled starting way x
  obtain ⟨f, runs, acts⟩ := claims_powerGood starting way
  have risen : (s.setChannel n (lineRisen n i x)).channel n = lineRisen n i x := State.channel_setChannel_same ..
  have starting' : ((s.setChannel n (lineRisen n i x)).channel n).state = .starting := by rw [risen]; exact starting
  obtain ⟨lists, part, ports⟩ := comeUp_kept starting'
  have slot (j : SlotId) := comeUp_slot starting' j
  refine happens_of runs settled acts (.trans (t := s.setChannel n (lineRisen n i x)) ⟨rfl, rfl, rfl⟩ ports)
    fun u part' body => ⟨?_, fun j r powered lease notice record here phase => ?_, fun c => ?_,
      ((ListsKept.setChannel n _ s).trans lists).same body, ?_⟩
  · rw [body.channel, comeUp_channel starting', if_pos rfl, risen]
    rfl
  · have live : r.isLive = true := Record.isLive_iff.2 ⟨powered, lease, notice, phase⟩
    have now := slot j
    rw [State.slot_setChannel, record] at now
    rw [body.slot, now]
    dsimp only
    rw [if_pos ⟨here, live⟩, Record.poweredUp_of_live phase]
    rfl
  · obtain ⟨same, joins⟩ := comeUp_client starting' c
    rw [body.client]
    refine ⟨?_, ?_, ?_, ?_, joins⟩
    · rw [same]
      constructor <;> rfl
    · rw [same]
      rfl
    · rw [same]
      rfl
    · rw [same]
      rfl
  · refine Untouched.same ⟨.trans (t := s.setChannel n (lineRisen n i x)) (by constructor <;> rfl) part, fun j out => ?_,
      fun m other => ?_, fun _ all => absurd trivial all⟩ part' body
    · have now := slot j
      rw [State.slot_setChannel] at now
      rw [now]
      split
      · next r record => exact if_neg fun both => out ⟨r, record, both⟩
      · rfl
    · rw [comeUp_channel starting', if_neg other, State.channel_setChannel, if_neg other]

end Sys2Proof.Machine
end

section
/-! PROOF. O3, O5, O48, O49, O50: request frames, and what the port units do with the transactions on their wires. -/

namespace Sys2Proof.Laws.PayloadRoundTrip

/-- Every row of a command has a payload that its frame hands on. -/
theorem all (i : Instr) : Statement i := by
  cases i with
  | request => apply request
  | release => apply release
  | resize => apply resize
  | renew => apply renew
  | answerAck => apply answerAck
  | answerNak => apply answerNak
  | answerBusy => apply answerBusy
  | query => apply query
  | list => apply list
  | nextNotice => apply nextNotice
  | clientStatus => apply clientStatus
  | openClient => apply openClient
  | closeClient => apply closeClient
  | forceRetire => apply forceRetire
  | writeTierBudget => apply writeTierBudget
  | writeBudgetCap => apply writeBudgetCap
  | writeReserve0 => apply writeReserve0
  | writeEventMask => apply writeEventMask
  | writeChEnable => apply writeChEnable
  | writeSetting => apply writeSetting
  | readSetting => apply readSetting
  | start => apply start
  | hold => apply hold
  | resume => apply resume
  | enterSafe => apply enterSafe
  | restart => apply restart
  | unlockChannel => apply unlockChannel
  | readStatus => apply readStatus
  | readChannel => apply readChannel
  | clearEvents => apply clearEvents
  | _ => exact of_none rfl

end Sys2Proof.Laws.PayloadRoundTrip

namespace Sys2Proof.Machine

/- One proof after another: side by side they need more memory than the check allows. -/
set_option Elab.async false

variable {s t w : State} {p : PortId} {c : ClientId} {i : Instr} {f body payload bytes : List Byte} {code b : Byte} {k : Nat}
variable {u : PortUnit} {flags : BitVec 7} {bus : Bus}

/-! ## The frame of a command (Tables 44, 48) -/

theorem payloadLengths_short {n : Nat} (allowed : n ∈ payloadLengths code) : n ≤ 15 := by
  unfold payloadLengths at allowed
  split at allowed <;> simp at allowed <;> omega

theorem clientOfByte_clientByte (c : ClientId) (tag : BitVec 4) : clientOfByte (clientByte c tag) = c := by
  have := c.isLt
  have := tag.isLt
  refine Fin.ext ?_
  simp only [clientOfByte, clientByte, Fin.val_ofNat, BitVec.toNat_ofNat]
  omega

/-- Check 2 of R164: a body and its CRC. -/
theorem frameCrcOk_iff (body : List Byte) (x : Byte) : frameCrcOk (body ++ [x]) = true ↔ x = crc body := by
  simp [frameCrcOk]

/-- A frame whose payload is allowed for its code passes the checks of R164 and hands on the command of its payload. -/
theorem checkFrame_frameOf (allowed : payload.length ∈ payloadLengths code) (client : Byte) (p : PortId) :
    checkFrame p (frameOf code client payload) = commandOf p (clientOfByte client) code payload := by
  have short := payloadLengths_short allowed
  have lengthByte : byteAt (frameOf code client payload) 2 = BitVec.ofNat 8 payload.length := rfl
  have length : (frameOf code client payload).length = payload.length + 4 := by simp [frameOf]
  have value : (BitVec.ofNat 8 payload.length).toNat = payload.length := by
    rw [BitVec.toNat_ofNat]
    omega
  have form : frameFormOk (frameOf code client payload) = true := by
    have most : payload.length ≤ 40 := short.trans (by decide)
    simp only [frameFormOk, lengthByte, length, value, Nat.le_add_left, most, decide_true, Bool.and_self]
  have crcOk : frameCrcOk (frameOf code client payload) = true := (frameCrcOk_iff _ _).2 rfl
  have inside : ((frameOf code client payload).drop 3).dropLast = payload := by simp [frameOf]
  have known : (payloadLengths code).isEmpty = false := List.isEmpty_eq_false_iff.2 (List.ne_nil_of_mem allowed)
  have contains : (payloadLengths code).contains payload.length = true := List.contains_iff_mem.2 allowed
  have codeByte : byteAt (frameOf code client payload) 0 = code := rfl
  have clientByte : byteAt (frameOf code client payload) 1 = client := rfl
  simp only [checkFrame, form, crcOk, inside, codeByte, clientByte, known, contains, Bool.not_true, Bool.false_eq_true,
    if_false]

/-- Settles O3: the frame's code and payload are those of the row, and the payload's round trip gives the row again. -/
theorem framesCarryTheirCommand : Obligations.FramesCarryTheirCommand := by
  intro i tag frame formed made
  obtain ⟨⟨p, c, code, payload⟩, parts, rfl⟩ := Option.map_eq_some_iff.1 made
  obtain ⟨allowed, of⟩ := Laws.PayloadRoundTrip.all i formed p c code payload parts
  refine ⟨p, c, code, payload, parts, (checkFrame_frameOf allowed _ p).trans ?_⟩
  rw [clientOfByte_clientByte, of]

/-! ## The CRC finds one wrong byte (R165) -/

/-- One shift back: the bit shifted out is bit 0 of the polynomial. -/
def crcUnshift (r : Byte) : Byte := if r.getLsbD 0 then ((r ^^^ 0x07) >>> 1) ||| 0x80 else r >>> 1

theorem crcShift_injective : Function.Injective crcShift :=
  Function.LeftInverse.injective (g := crcUnshift) (by decide +kernel : ∀ r : Byte, crcUnshift (crcShift r) = r)

/-- The eight shifts of one byte. -/
def crcShifts (r : Byte) : Byte := (List.range 8).foldl (fun a _ => crcShift a) r

theorem crcShifts_injective : Function.Injective crcShifts := by
  have folds (l : List Nat) : Function.Injective fun r => l.foldl (fun a _ => crcShift a) r := by
    induction l with
    | nil => exact fun _ _ => id
    | cons _ rest ih => exact ih.comp crcShift_injective
  exact folds _

theorem crcByte_eq (r x : Byte) : crcByte r x = crcShifts (r ^^^ x) := rfl

theorem crcByte_injective_left (x : Byte) : Function.Injective fun r => crcByte r x := by
  intro a b same
  simp only [crcByte_eq] at same
  exact (BitVec.xor_left_inj _).1 (crcShifts_injective same)

theorem crcByte_injective_right (r : Byte) : Function.Injective (crcByte r) := by
  intro a b same
  rw [crcByte_eq, crcByte_eq] at same
  exact (BitVec.xor_right_inj _).1 (crcShifts_injective same)

theorem foldl_crcByte_injective (l : List Byte) : Function.Injective fun r => l.foldl crcByte r := by
  induction l with
  | nil => exact fun _ _ => id
  | cons x rest ih => exact ih.comp (crcByte_injective_left x)

/-- Changing one byte changes the CRC. -/
theorem foldl_crcByte_set (r : Byte) (inside : k < body.length) (other : byteAt body k ≠ b) :
    (body.set k b).foldl crcByte r ≠ body.foldl crcByte r := by
  induction body generalizing r k with
  | nil => cases inside
  | cons x rest ih =>
    cases k with
    | zero =>
      intro same
      exact other (crcByte_injective_right r (foldl_crcByte_injective rest same)).symm
    | succ k => exact ih (crcByte r x) (Nat.lt_of_succ_lt_succ inside) other

theorem crc_set (inside : k < body.length) (other : byteAt body k ≠ b) : crc (body.set k b) ≠ crc body :=
  foldl_crcByte_set 0 inside other

/-! ## One wrong byte in a frame (R164) -/

theorem checkFrame_badFrame (wrong : frameFormOk f = false ∨ frameCrcOk f = false) : checkFrame p f = .badFrame := by
  obtain wrong | wrong := wrong
  · simp only [checkFrame, wrong, Bool.not_false, if_true]
  · simp only [checkFrame, wrong, Bool.not_false, if_true, ite_self]

theorem exists_body_of_frameCrcOk (ok : frameCrcOk f = true) : ∃ body, f = body ++ [crc body] :=
  ⟨f.dropLast, (List.dropLast_append_getLast? _ (beq_iff_eq.1 ok : f.getLast? = some (crc f.dropLast))).symm⟩

/-- A frame with its CRC, one byte changed, has not its CRC. -/
theorem frameCrcOk_set (ok : frameCrcOk f = true) (inside : k < f.length) (other : byteAt f k ≠ b) :
    frameCrcOk (f.set k b) = false := by
  obtain ⟨body, rfl⟩ := exists_body_of_frameCrcOk ok
  refine Bool.eq_false_iff.2 fun still => ?_
  by_cases early : k < body.length
  · rw [List.set_append_left _ _ early, frameCrcOk_iff] at still
    refine crc_set early (b := b) ?_ still.symm
    simpa [byteAt, List.getElem?_append_left early] using other
  · have last : k = body.length := by
      rw [List.length_append, List.length_singleton] at inside
      omega
    subst last
    rw [byteAt_length] at other
    have changed : (body ++ [crc body]).set body.length b = body ++ [b] := by simp
    rw [changed, frameCrcOk_iff] at still
    exact other still.symm

/-- Settles O5: a wrong length byte fails the form, and any other wrong byte the CRC. -/
theorem oneWrongByteIsRefused : Obligations.OneWrongByteIsRefused := by
  intro p bytes k b inside other accepted
  have form : frameFormOk bytes = true :=
    Bool.of_not_eq_false fun wrong => accepted (checkFrame_badFrame (.inl wrong))
  have crcOk : frameCrcOk bytes = true :=
    Bool.of_not_eq_false fun wrong => accepted (checkFrame_badFrame (.inr wrong))
  by_cases lengthByte : k = 2
  · refine checkFrame_badFrame (.inl (Bool.eq_false_iff.2 fun still => ?_))
    subst lengthByte
    have now : byteAt (bytes.set 2 b) 2 = b := by simp [byteAt, inside]
    simp only [frameFormOk, Bool.and_eq_true, decide_eq_true_eq, List.length_set, now] at form still
    exact other (BitVec.eq_of_toNat_eq (by omega))
  · exact checkFrame_badFrame (.inr (frameCrcOk_set crcOk inside other))

/-! ## What a port unit writes -/

/-- The part has written port unit `p`, which is now `u`, and raised these flags; all else is as it was. -/
structure PortWrites (p : PortId) (u : PortUnit) (flags : BitVec 7) (s t : State) : Prop where
  own      : t.port p = u
  other    : ∀ q, q ≠ p → t.port q = s.port q
  response : t.response = s.response
  part     : SamePart s t
  body     : SameBody { s with flags := flags } t

theorem PortWrites.refl (p : PortId) (s : State) : PortWrites p (s.port p) s.flags s s :=
  ⟨rfl, fun _ _ => rfl, rfl, .refl s, by constructor <;> rfl⟩

theorem PortWrites.setPort (p : PortId) (u : PortUnit) (s : State) : PortWrites p u s.flags s (s.setPort p u) where
  own      := State.port_setPort_same ..
  other q h := by rw [State.port_setPort, if_neg h]
  response := by cases p <;> rfl
  part     := by cases p <;> constructor <;> rfl
  body     := by cases p <;> constructor <;> rfl

theorem PortWrites.raised (p : PortId) (u : PortUnit) (s : State) :
    PortWrites p u (s.flags ||| 0x20) s (raise .portError (s.setPort p u)) where
  own      := by rw [State.port_raise, State.port_setPort_same]
  other q h := by rw [State.port_raise, State.port_setPort, if_neg h]
  response := by cases p <;> rfl
  part     := by cases p <;> constructor <;> rfl
  body     := by cases p <;> constructor <;> rfl

/-- What the port then shows of the transaction is two windows of its own (log entry 27). -/
theorem PortWrites.signal (h : PortWrites p u flags s t) (bus : Bus) (written : Nat) (out : List Byte) :
    PortWrites p { u with shifted := leadIn bus ++ out, acked := acksOf written bus } flags s
      (signal p bus written out t) := by
  obtain ⟨part, body, other, own⟩ := signal_same p bus written out t
  exact ⟨own.trans (by rw [h.own]), fun q ne => (other q ne).trans (h.other q ne), Eq.trans (by cases p <;> rfl) h.response,
    h.part.trans part, h.body.trans body⟩

theorem PortWrites.driveLines (h : PortWrites p u flags s t) : PortWrites p u flags s (driveLines t) :=
  ⟨(State.port_driveLines _ p).trans h.own, fun q ne => (State.port_driveLines _ q).trans (h.other q ne), h.response,
    h.part.trans (driveLines_part t), h.body.trans (driveLines_body t)⟩

/-- A write of a port that raises no flag leaves the body as it was. -/
theorem PortWrites.sameBody (h : PortWrites p u s.flags s t) : SameBody s t := h.body

theorem signal_lines (p : PortId) (bus : Bus) (written : Nat) (out : List Byte) (s : State) :
    (signal p bus written out s).attn = s.attn ∧ (signal p bus written out s).alert = s.alert := by
  cases p <;> exact ⟨rfl, rfl⟩

theorem setPort_lines (p : PortId) (u : PortUnit) (s : State) :
    (s.setPort p u).attn = s.attn ∧ (s.setPort p u).alert = s.alert := by
  cases p <;> exact ⟨rfl, rfl⟩

/-! ## Write transactions (R161 to R164, R168, R170) -/

theorem saturate_eq {n : Nat} (within : n ≤ 255) : saturate n = min 255 (n + 1) := by
  unfold saturate
  split <;> omega

theorem leadIn_writeEcho (n : Nat) (bus : Bus) :
    leadIn bus ++ writeEcho n bus = if bus = .spi then List.replicate (n + 1) 0 else [] := by
  cases bus <;> rfl

theorem acksOf_eq (n : Nat) (bus : Bus) : acksOf n bus = if bus = .spi then 0 else n + 1 := by
  cases bus with
  | spi => rfl
  | i2c a => exact Nat.add_comm 1 n

theorem writeFrame_executing (executing : (s.port p).state = .executing) (few : (s.port p).overruns ≤ 255) :
    PortWrites p { s.port p with overrun := true, overruns := min 255 ((s.port p).overruns + 1) } (s.flags ||| 0x20) s
      (writeFrame p bytes s) := by
  rw [writeFrame, if_pos executing, ← saturate_eq few]
  exact .raised ..

theorem refuseFrame_writes (e : Result) (few : (s.port p).rejected ≤ 255) :
    PortWrites p
      { s.port p with state := .ready, buffer := responseFrame { result := e } (byteAt bytes 0, byteAt bytes 1) false,
                      overrun := false, rejected := min 255 ((s.port p).rejected + 1), handed := none,
                      overtaken := false, reply := none }
      (s.flags ||| 0x20) s (refuseFrame p e bytes s) := by
  rw [← saturate_eq few]
  exact .raised ..

/-- A transaction that writes a frame, by what the port makes of the frame. -/
theorem writeTransaction_leaves (port : portOf bus s = some p) (nonempty : bytes ≠ [])
    (writes : PortWrites p u flags s (writeFrame p bytes s)) :
    ∃ t, exec (.writeTransaction bus bytes) s = .next t ∧
      t.port p = { u with shifted := if bus = .spi then List.replicate (bytes.length + 1) 0 else [],
                          acked := if bus = .spi then 0 else bytes.length + 1 } ∧
      (∀ q, q ≠ p → t.port q = s.port q) ∧ t.response = s.response ∧ LinesDriven t ∧ SamePart s t ∧
      SameBody { s with flags := flags } t := by
  have shown := (writes.signal bus bytes.length (writeEcho bytes.length bus)).driveLines
  rw [leadIn_writeEcho, acksOf_eq] at shown
  have runs : exec (.writeTransaction bus bytes) s =
      .next (driveLines (signal p bus bytes.length (writeEcho bytes.length bus) (writeFrame p bytes s))) := by
    simp [exec, execWriteTransaction, port, nonempty]
  exact ⟨_, runs, shown.own, shown.other, shown.response, driveLines_driven _, shown.part, shown.body⟩

/-- Settles O48: the port's state and the check of its frame decide what it writes. -/
theorem writeTransactionIsTaken : Obligations.WriteTransactionIsTaken := by
  refine ⟨fun bus bytes s elsewhere => ?_, fun bus p s port => ?_, fun bus bytes p s port nonempty => ?_⟩
  · simp only [exec, execWriteTransaction, elsewhere]
  · have shown := (PortWrites.refl p s).signal bus 0 (writeEcho 0 bus)
    rw [leadIn_writeEcho, acksOf_eq] at shown
    obtain ⟨attn, alert⟩ := signal_lines p bus 0 (writeEcho 0 bus) s
    have runs : exec (.writeTransaction bus []) s = .next (signal p bus 0 (writeEcho 0 bus) s) := by
      simp [exec, execWriteTransaction, port]
    exact ⟨_, runs, shown.own, shown.other, shown.response, attn, alert, shown.part, shown.sameBody⟩
  · intro u echo out acks leaves refused accepted fewRejected fewOverruns
    have idle (state : u.state ≠ .executing) : writeFrame p bytes s = match checkFrame p bytes with
        | .badFrame => refuseFrame p .badFrame bytes s
        | .unknown => refuseFrame p .unknown bytes s
        | .handsOn i => acceptFrame p i bytes s := if_neg state
    refine ⟨fun executing => ?_, fun state found => ?_, fun state found => ?_, fun i state found => ?_⟩
    · exact writeTransaction_leaves port nonempty (writeFrame_executing executing fewOverruns)
    · refine writeTransaction_leaves port nonempty ?_
      rw [idle state, found]
      exact refuseFrame_writes .badFrame fewRejected
    · refine writeTransaction_leaves port nonempty ?_
      rw [idle state, found]
      exact refuseFrame_writes .unknown fewRejected
    · refine writeTransaction_leaves port nonempty ?_
      rw [idle state, found]
      exact .setPort ..

/-! ## Read transactions (R162, R163, R169) -/

/-- The bytes of a READY port: its response frame, and 0x00 after it. -/
theorem take_append_zeros (l : List Byte) (n : Nat) :
    (l ++ List.replicate n 0).take n = (List.range n).map fun k => byteAt l k := by
  refine List.ext_getElem (by simp) fun k h _ => ?_
  have below : k < n := by simpa using h
  simp only [List.getElem_take, List.getElem_map, List.getElem_range, byteAt, List.getD_eq_getElem?_getD]
  by_cases inside : k < l.length
  · simp [List.getElem_append_left inside, inside]
  · simp [List.getElem_append_right (Nat.le_of_not_lt inside), inside]

theorem portOf_i2c (a : BitVec 7) (s : State) : portOf (.i2c a) s = none ↔ a ≠ s.address := by
  simp [portOf]

theorem leadIn_append (bus : Bus) (out : List Byte) : leadIn bus ++ out = if bus = .spi then 0 :: out else out := by
  cases bus <;> rfl

/-- A transaction that reads, by what it sends and what it leaves of the port. -/
theorem readTransaction_leaves {count : Nat} (port : portOf bus s = some p) {sent : List Byte}
    (sends : readBytes (s.port p) count = sent) (leaves : (s.port p).afterRead count = u) :
    ∃ t, exec (.readTransaction bus count) s = .next t ∧
      t.port p = { u with shifted := if bus = .spi then 0 :: sent else sent, acked := if bus = .spi then 0 else 1 } ∧
      (∀ q, q ≠ p → t.port q = s.port q) ∧ t.response = s.response ∧ SamePart s t ∧ SameBody s t ∧
      t.attn = s.attn ∧ t.alert = s.alert := by
  have shown := (PortWrites.setPort p u s).signal bus 0 sent
  rw [leadIn_append, acksOf_eq] at shown
  obtain ⟨attn, alert⟩ := signal_lines p bus 0 sent (s.setPort p u)
  obtain ⟨attn', alert'⟩ := setPort_lines p u s
  have runs : exec (.readTransaction bus count) s = .next (signal p bus 0 sent (s.setPort p u)) := by
    simp [exec, execReadTransaction, port, sends, leaves]
  exact ⟨_, runs, shown.own, shown.other, shown.response, shown.part, shown.sameBody, attn.trans attn', alert.trans alert'⟩

/-- Settles O49: the port's state decides what it sends and whether it keeps its response. -/
theorem readTransactionReturnsByState : Obligations.ReadTransactionReturnsByState := by
  refine ⟨fun bus count s elsewhere => ?_, portOf_i2c, fun bus count p s port => ?_⟩
  · simp only [exec, execReadTransaction, elsewhere]
  · refine ⟨fun idle => ?_, fun executing => ?_, fun ready none => ?_, fun ready some => ?_⟩
    · exact readTransaction_leaves port (by rw [readBytes, idle]) (if_neg (by simp [idle]))
    · exact readTransaction_leaves port (by rw [readBytes, executing]) (if_neg (by simp [executing]))
    · subst none
      exact readTransaction_leaves port (by rw [readBytes, ready]; rfl) (if_neg (by simp))
    · refine readTransaction_leaves port (by rw [readBytes, ready]; exact take_append_zeros ..)
        (if_pos ⟨ready, by omega⟩)

/-! ## Responses and direction bytes (R162, R163, R167, R170) -/

/-- Settles O50: each row by the branch of its meaning, and `present` by the row of the transaction. -/
theorem responsesAndDirectionBytes : Obligations.ResponsesAndDirectionBytes := by
  intro s
  refine ⟨fun p a executing done reply => ?placed, fun d count notWrite notRead few => ?refused, fun bits => ?nothing,
    fun d bytes bits => ⟨?write, ?read, ?other⟩, fun a bytes => ⟨rfl, rfl⟩⟩
  case placed =>
    have written := PortWrites.setPort p
      { s.port p with state := .ready, overrun := false, reply := none,
                      buffer := responseFrame a (s.port p).echo (s.port p).overrun } s
    have runs : exec (.responsePlaced p) s = .next (s.setPort p
        { s.port p with state := .ready, overrun := false, reply := none,
                        buffer := responseFrame a (s.port p).echo (s.port p).overrun }) := by
      simp only [exec, execResponsePlaced, executing, done, reply]
    exact ⟨_, runs, written.own, written.other, written.part, written.sameBody⟩
  case refused =>
    have written := ((PortWrites.raised .client
      { s.clientPort with rejected := min 255 (s.clientPort.rejected + 1) } s).signal .spi 0 (writeEcho count .spi)).driveLines
    have runs : exec (.directionByteRefused d count) s = .next (driveLines (signal .client .spi 0 (writeEcho count .spi)
        (raise .portError (s.setPort .client { s.clientPort with rejected := min 255 (s.clientPort.rejected + 1) })))) := by
      rw [← saturate_eq few]
      exact if_neg (not_or.2 ⟨notWrite, notRead⟩)
    exact ⟨_, runs, driveLines_driven _, written.own, written.other .management (by decide), written.part, written.body⟩
  case nothing =>
    change { s with pending := s.pending ++ [] } = s
    rw [List.append_nil]
  case write =>
    rintro rfl
    rfl
  case read =>
    rintro rfl
    rfl
  case other =>
    intro notWrite notRead
    have row : Transfer.row (.spi (d :: bytes) bits) = some (.directionByteRefused d bytes.length) :=
      (if_neg notWrite).trans (if_neg notRead)
    rw [present, row]
    rfl

end Sys2Proof.Machine
end

section
/-! PROOF. O40, O41, O42, O43: what an accepted WRITE_SETTING does, by its key (R46 to R51, R93, R108, R109, R156, R158). -/

namespace Sys2Proof.Machine

/- One proof after another: side by side they need more memory than the check allows. -/
set_option Elab.async false

variable {s t u : State} {p : PortId} {c : ClientId} {i : Instr} {n : ChannelId} {key index : Byte} {value : Half}
variable {k : SettingKey} {g : Settings} {v : Nat}

/-! ## An accepted write -/

/-- A write passes the checks of R156. -/
structure WriteOk (k : SettingKey) (index : Byte) (v : Nat) (s : State) : Prop where
  writable : k = .eventMask ∨ s.mode ≠ .safe
  indexIn  : indexOk k index = true
  value    : valueOk k v = true
  target   : targetEmpty k index s = true

theorem WriteOk.passes (ok : WriteOk k index v s) : firstFailure (writeChecks k index v s) = none := by
  rw [writeChecks, writableIn_of ok.writable, ok.indexIn, ok.value, ok.target]
  rfl

theorem writeAct_ok (may : SupervisorMayAct p c s) (known : keyOf key = some k) (ok : WriteOk k index value.toNat s) :
    writeAct p c key index value s = (writeKey k index value.toNat s, { result := .ok }) := by
  simp only [writeAct, may.sends, Bool.not_true, Bool.false_eq_true, if_false, known]
  exact checked_of_pass _ ok.passes

/-! ## The plain keys (R46, R93, R158) -/

/-- A write whose effect is the new settings alone. -/
theorem write_stores (hx : exec i s = command p i (writeAct p c key index value) s) (may : SupervisorMayAct p c s)
    (known : keyOf key = some k) (ok : WriteOk k index value.toNat s)
    (plain : writeKey k index value.toNat s = { s with settings := g }) :
    Takes p i { result := .ok } s fun t => SamePart { s with settings := g } t ∧ SameBody s t := by
  have acts := writeAct_ok may known ok
  rw [plain] at acts
  exact takes_of hx may.settled acts ⟨rfl, rfl, rfl⟩ fun _ part body =>
    ⟨part, SameBody.trans (by constructor <;> rfl) body⟩

/-! ## The keys of a channel (R108, R109) -/

theorem ChannelFree.channelEmpty (free : ChannelFree n s) : channelEmpty n s = true := by
  have none : slotsWhere (fun r => decide (r.channel = n)) s = [] :=
    List.filter_eq_nil_iff.2 fun j _ named => by
      obtain ⟨r, record, here⟩ := (Option.any_eq_true ..).1 named
      exact free.records j r record (of_decide_eq_true here)
  rw [Machine.channelEmpty, none]
  obtain st | st | st := free.state <;> rw [st] <;> rfl

/-- A write of a channel key writes that channel alone. -/
theorem write_channel {k : ChannelKey} (hx : exec i s = command p i (writeAct p c key index value) s)
    (may : SupervisorMayAct p c s) (notSafe : s.mode ≠ .safe) (known : keyOf key = some (.channel k))
    (named : index.toNat = n.val) (inRange : channelValueOk k value.toNat = true) (free : ChannelFree n s) :
    Takes p i { result := .ok } s fun t => t.channel n = (s.channel n).keyWritten k value.toNat ∧ ListsKept s t ∧
      Untouched (fun _ => False) (fun m => m = n) (fun _ => False) s t := by
  have ok : WriteOk (.channel k) index value.toNat s := by
    refine ⟨.inr notSafe, channelOk_of_toNat named, inRange, ?_⟩
    rw [targetEmpty, channelOf_of_toNat named]
    exact free.channelEmpty
  have writes : writeKey (.channel k) index value.toNat s = s.setChannel n ((s.channel n).keyWritten k value.toNat) := by
    rw [writeKey, channelOf_of_toNat named]
    rfl
  have acts := writeAct_ok may known ok
  rw [writes] at acts
  refine takes_of hx may.settled acts ⟨rfl, rfl, rfl⟩ fun u part body => ?_
  obtain ⟨⟨lists, untouched⟩, written⟩ := setChannel_same n _ part body
  exact ⟨written, lists, untouched⟩

/-- Settles O42: each plain key writes its field, and each channel key but CH_ENABLE its field of the profile. -/
theorem plainWritesStoreTheirValue : Obligations.PlainWritesStoreTheirValue := by
  intro p c value s may v stores
  have inside {lo hi : Nat} (least : lo ≤ v) (most : v ≤ hi) : within lo hi v = true := by
    rw [within_eq, decide_eq_true_eq]
    exact ⟨least, most⟩
  refine ⟨fun most => ?mask, fun notSafe => ⟨fun least most => ?settle, fun least most => ?notice, fun most => ?busy,
    fun n index named state empty => ?channel⟩⟩
  case mask => exact write_stores rfl may (k := .eventMask) rfl ⟨.inl rfl, rfl, inside (Nat.zero_le v) most, rfl⟩ rfl
  case settle => exact write_stores rfl may (k := .tierSettle) rfl ⟨.inr notSafe, rfl, inside least most, rfl⟩ rfl
  case notice => exact write_stores rfl may (k := .noticeTime) rfl ⟨.inr notSafe, rfl, inside least most, rfl⟩ rfl
  case busy => exact write_stores rfl may (k := .busyLimit) rfl ⟨.inr notSafe, rfl, inside (Nat.zero_le v) most, rfl⟩ rfl
  case channel =>
    have free : ChannelFree n s := ⟨state, empty⟩
    exact ⟨fun least most => write_channel (k := .ceiling) rfl may notSafe rfl named (inside least most) free,
      fun least most => write_channel (k := .startTime) rfl may notSafe rfl named (inside least most) free,
      fun most => write_channel (k := .discharge) rfl may notSafe rfl named (inside (Nat.zero_le v) most) free,
      fun least most => write_channel (k := .cooldown) rfl may notSafe rfl named (inside least most) free,
      fun least most => write_channel (k := .lockout) rfl may notSafe rfl named (inside least most) free,
      fun least most => write_channel (k := .clean) rfl may notSafe rfl named (inside least most) free⟩

/-! ## CH_ENABLE (R109) -/

/-- What a write of CH_ENABLE makes of an empty channel. -/
theorem keyWritten_enable {x : Channel} (most : v ≤ 1)
    (state : x.state = .disabled ∨ x.state = .off ∨ x.state = .locked) :
    x.keyWritten .enable v =
      let y := { x with profile := { x.profile with enable := decide (v = 1) } }
      if v = 1 ∧ x.state = .disabled then { y with state := .off, timer := none, en := false }
      else if v = 0 ∧ x.state ≠ .disabled then
        { y with state := .disabled, timer := none, en := false, faultCount := 0, cause := .none }
      else y := by
  obtain rfl | rfl : v = 0 ∨ v = 1 := by omega
  · obtain st | st | st := state <;>
      simp [Channel.keyWritten, Profile.put, Channel.enableWritten, Channel.enter, st]
  · obtain st | st | st := state <;>
      simp [Channel.keyWritten, Profile.put, Channel.enableWritten, Channel.enter, st]

/-- Settles O43. -/
theorem chEnableWriteActsOnTheChannel : Obligations.ChEnableWriteActsOnTheChannel := by
  intro p c index value n s may notSafe named most state empty x y
  have inRange : channelValueOk .enable value.toNat = true := by
    rw [channelValueOk, within_eq, decide_eq_true_eq]
    exact ⟨Nat.zero_le _, most⟩
  have taken := write_channel (i := .writeChEnable p c index value) rfl may notSafe rfl named inRange ⟨state, empty⟩
  rw [keyWritten_enable most state] at taken
  exact taken

/-! ## RESERVE_0 (R51) -/

theorem handOn_false_cases (w : Bool) (s : State) : (w = false ∧ handOn false w s = s) ∨ handOn false w s = walk s := by
  cases w with
  | false => exact .inl ⟨rfl, handOn_none s⟩
  | true => exact .inr (handOn_walk s)

theorem ShedAndFlagsKept.walk (s : State) : ShedAndFlagsKept s (Machine.walk s) := by
  obtain ⟨shed, shedList, relief, flags, -⟩ := WalkKeeps.walk s
  exact ⟨shed, shedList, relief, flags⟩

theorem handOn_false_kept (w : Bool) (s : State) : ShedAndFlagsKept s (handOn false w s) := by
  obtain ⟨-, e⟩ | e := handOn_false_cases w s <;> rw [e]
  · exact ⟨rfl, rfl, rfl, rfl⟩
  · exact .walk s

/-- Where no walk is triggered or it may not run, no walk follows. -/
theorem handOn_false_still {w : Bool} (still : w = false ∨ s.mode ≠ .run ∨ s.shed ≠ .idle) : handOn false w s = s := by
  obtain ⟨-, e⟩ | e := handOn_false_cases w s
  · exact e
  obtain rfl | mode | shed := still
  · exact handOn_none s
  · exact e.trans (walk_idle (.inl mode))
  · exact e.trans (walk_idle (.inr (.inl shed)))

/-- Settles O41: a write of RESERVE_0 asks for a walk at most. -/
theorem reserveWriteOnlyWalks : Obligations.ReserveWriteOnlyWalks := by
  intro p c value s may notSafe most g
  have ok : WriteOk .reserve0 0 value.toNat s := by
    refine ⟨.inr notSafe, rfl, ?_, rfl⟩
    rw [valueOk, within_eq, decide_eq_true_eq]
    exact ⟨Nat.zero_le _, most⟩
  have writes : writeKey .reserve0 0 value.toNat s =
      handOn false (decide (value.toNat < s.settings.reserve0)) { s with settings := g } := rfl
  have handed : HandOff { s with settings := g } (writeKey .reserve0 0 value.toNat s) := handOn_handOff ..
  have kept : ShedAndFlagsKept { s with settings := g } (writeKey .reserve0 0 value.toNat s) := handOn_false_kept ..
  have holdings : SameHoldings s (writeKey .reserve0 0 value.toNat s) := handed.holdings
  have shed : ShedAndFlagsKept s (writeKey .reserve0 0 value.toNat s) :=
    ⟨kept.shed, kept.shedList, kept.relief, kept.flags⟩
  have ports : SamePorts s (writeKey .reserve0 0 value.toNat s) := .trans (t := { s with settings := g }) ⟨rfl, rfl, rfl⟩ handed.ports
  refine takes_of rfl may.settled (writeAct_ok (key := 0x03) may rfl ok) ports fun u part body =>
    ⟨handed.frame.same part body, holdings.same body, shed.same body, fun still => ?_⟩
  have nothing : writeKey .reserve0 0 value.toNat s = { s with settings := g } := by
    rw [writes]
    exact handOn_false_still (still.imp_left fun up => decide_eq_false up.not_gt)
  rw [nothing] at body
  exact SameBody.trans (by constructor <;> rfl) body

/-! ## The budget (R47, R49, R50) -/

/-- What a write leaves that recomputes the effective budget from the settings `g`. -/
structure Rebudgets (g : Settings) (s t : State) : Prop where
  handed    : HandOff { s with settings := g, budget := min g.tierBudget[s.selected] g.budgetCap } t
  unchanged : min g.tierBudget[s.selected] g.budgetCap = s.budget → SameBody s t
  changed   : min g.tierBudget[s.selected] g.budgetCap ≠ s.budget → ShedSettled t

theorem rebudget_rebudgets (g : Settings) (s : State) : Rebudgets g s (rebudget { s with settings := g }) where
  handed    := rebudget_handOff { s with settings := g }
  unchanged same := by
    rw [rebudget_unchanged (s := { s with settings := g }) same]
    constructor <;> rfl
  changed other := rebudget_settled (s := { s with settings := g }) other

/-- Where the selected entry and the cap stay, the budget is not recomputed and stays the lesser of them. -/
theorem setting_rebudgets (unit : BudgetUnitOk s) (tiers : g.tierBudget[s.selected] = s.settings.tierBudget[s.selected])
    (cap : g.budgetCap = s.settings.budgetCap) : Rebudgets g s { s with settings := g } := by
  have same : min g.tierBudget[s.selected] g.budgetCap = s.budget := by rw [tiers, cap, unit.budget]
  refine ⟨?_, fun _ => by constructor <;> rfl, fun other => absurd same other⟩
  rw [same]
  exact .refl _

theorem tierBudget_set_other {k : Tier} (other : k ≠ s.selected) (v : Nat) :
    (s.settings.tierBudget.set k v)[s.selected] = s.settings.tierBudget[s.selected] := by
  simp only [Fin.getElem_fin]
  exact Vector.getElem_set_ne _ _ fun e => other (Fin.ext e)

theorem writeTier_rebudgets (unit : BudgetUnitOk s) {k : Tier} (named : index.toNat = k.val) :
    Rebudgets { s.settings with tierBudget := s.settings.tierBudget.set k v } s (writeKey .tierBudget index v s) := by
  obtain rfl := tierOf_of_toNat named
  unfold writeKey
  dsimp only
  split
  · exact rebudget_rebudgets ..
  · next other => exact setting_rebudgets unit (tierBudget_set_other other v) rfl

/-- A write that recomputes the budget, taken. -/
theorem write_rebudgets (hx : exec i s = command p i (writeAct p c key index value) s) (may : SupervisorMayAct p c s)
    (known : keyOf key = some k) (ok : WriteOk k index value.toNat s) (writes : Rebudgets g s (writeKey k index value.toNat s)) :
    Takes p i { result := .ok } s fun t =>
      GrantFrame (fun _ => False) (fun _ => False)
        { s with settings := g, budget := min g.tierBudget[s.selected] g.budgetCap } t ∧
      SameHoldings s t ∧ (min g.tierBudget[s.selected] g.budgetCap = s.budget → SameBody s t) ∧
      (min g.tierBudget[s.selected] g.budgetCap ≠ s.budget → ShedSettled t) := by
  have holdings : SameHoldings s (writeKey k index value.toNat s) := writes.handed.holdings
  obtain ⟨client, management, response⟩ := writes.handed.ports
  have ports : SamePorts s (writeKey k index value.toNat s) := ⟨client, management, response⟩
  exact takes_of hx may.settled (writeAct_ok may known ok) ports fun u part body =>
    ⟨writes.handed.frame.same part body, holdings.same body, fun same => (writes.unchanged same).trans body,
      fun other => (writes.changed other).same part body⟩

/-- Settles O40: both writes recompute the effective budget where it depends on what they write. -/
theorem budgetWritesAreHandedOn : Obligations.BudgetWritesAreHandedOn := by
  intro p c index value i g s may notSafe unit most row b
  have inRange : within 0 20000 value.toNat = true := by
    rw [within_eq, decide_eq_true_eq]
    exact ⟨Nat.zero_le _, most⟩
  obtain ⟨k, named, rfl, rfl⟩ | ⟨rfl, rfl, rfl⟩ := row
  · have tier : indexOk .tierBudget index = true := decide_eq_true (by omega)
    exact write_rebudgets rfl may (key := 0x01) rfl ⟨.inr notSafe, tier, inRange, rfl⟩ (writeTier_rebudgets unit named)
  · exact write_rebudgets rfl may (key := 0x02) rfl ⟨.inr notSafe, rfl, inRange, rfl⟩ (rebudget_rebudgets ..)

end Sys2Proof.Machine
end

section
/-! PROOF. O23, O24, O29, O39: the end of a record and its hand-offs, for RELEASE, for the answers that free, and for the
retirements. -/

namespace Sys2Proof.Machine

/- One proof after another: side by side they need more memory than the check allows. -/
set_option Elab.async false

variable {s t u v : State} {p : PortId} {c : ClientId} {h : Half} {i j : SlotId} {r q : Record} {m : ChannelId}
  {x y z : Channel} {e w : Bool}

/-! ## What the hand-offs of a claim leave of a channel -/

/-- No walk starts a channel that is not OFF, or that has a live grant. -/
def NotStartable (x : Channel) : Prop := x.state ≠ .off ∨ x.live ≠ 0

theorem GoesOn.refl (x : Channel) : GoesOn x x := ⟨rfl, rfl, rfl⟩

theorem GoesOn.trans (a : GoesOn x y) (b : GoesOn y z) : GoesOn x z :=
  ⟨b.1.trans a.1, b.2.1.trans a.2.1, b.2.2.trans a.2.2⟩

theorem NotStartable.gain (h : NotStartable x) (now : Tick) (amount : Nat) :
    NotStartable (x.gain now amount) ∧ GoesOn x (x.gain now amount) := by
  have still : ¬ (x.live = 0 ∧ x.state = .off) := fun both => h.elim (· both.2) (· both.1)
  rw [Channel.gain_eq, Channel.withGrant, if_neg still]
  exact ⟨.inr (Nat.succ_ne_zero _), .refl _⟩

theorem walk_goesOn (h : NotStartable (s.channel n)) : GoesOn (s.channel n) ((walk s).channel n) := by
  refine (walk_keeps (P := fun t => NotStartable (t.channel n) ∧ GoesOn (s.channel n) (t.channel n)) ⟨h, .refl _⟩ ?_).2
  rintro i t taken ⟨startable, goes⟩
  obtain ⟨r, record, -⟩ := visit_take taken
  rw [admitQueued_channel record]
  split
  · next same =>
    subst same
    have gained := NotStartable.gain (x := (t.channel r.channel).unqueued) startable t.tick r.amount
    exact ⟨gained.1, goes.trans gained.2⟩
  · exact ⟨startable, goes⟩

theorem handOn_goesOn (h : NotStartable (s.channel n)) : GoesOn (s.channel n) ((handOn e w s).channel n) := by
  have evaluated (t : State) : (evaluate t).channel n = t.channel n := (evaluate_keeps t).channel n
  obtain same | walks := handOn_cases e w s
  · rw [same]
    split
    · rw [evaluated]
      exact .refl _
    · exact .refl _
  · rw [walks]
    split
    · rw [← evaluated s] at h ⊢
      exact walk_goesOn h
    · exact walk_goesOn h

theorem handOn_offOrStarted (h : OffOrStartedAt s.tick (s.channel n)) :
    OffOrStartedAt s.tick ((handOn e w s).channel n) := by
  refine (handOn_keepsAll (P := fun t => t.tick = s.tick ∧ OffOrStartedAt s.tick (t.channel n)) e w ⟨rfl, h⟩ ?_ ?_).2
  · rintro t ⟨now, off⟩
    exact ⟨(evaluate_handOff t).frame.part.tick.trans now, ((evaluate_keeps t).channel n).symm ▸ off⟩
  · rintro t ⟨now, off⟩
    refine ⟨(walk_handOff t).frame.part.tick.trans now, ?_⟩
    rw [← now] at off ⊢
    exact walk_offOrStarted off

/-- The records that wait in `u` waited in `s`, for the same channels. -/
def QueuedBefore (s u : State) : Prop := ∀ j q, (u.slot j).record = some q → q.isQueued = true →
  ∃ q', (s.slot j).record = some q' ∧ q'.isQueued = true ∧ q'.channel = q.channel

theorem SameDrive.trans (a : SameDrive x y) (b : SameDrive y z) : SameDrive x z :=
  ⟨b.state.trans a.state, b.count.trans a.count, b.timer.trans a.timer, b.profile.trans a.profile, b.en.trans a.en⟩

theorem SameDrive.goesOn (h : SameDrive x y) : GoesOn x y := ⟨h.state, h.en, h.timer⟩

theorem SameDrive.stop (h : SameDrive x z) (now : Tick) : SameDrive (x.stop now) (z.stop now) := by
  obtain ⟨state, count, timer, profile, en⟩ := h
  by_cases drives : x.state.drives = true
  · rw [Channel.stop_drives now drives, Channel.stop_drives now (state ▸ drives), profile]
    split <;> exact ⟨rfl, count, rfl, profile, rfl⟩
  · rw [Bool.not_eq_true] at drives
    rw [Channel.stop_idle now drives, Channel.stop_idle now (state ▸ drives)]
    exact ⟨state, count, timer, profile, en⟩

/-- A channel that a claim has left without a live grant has made its last-grant report; the hand-offs of the claim come
after it. -/
theorem handOn_stops (report : SameDrive (x.stop s.tick) (u.channel n)) (queued : QueuedBefore s u) :
    Stops s n x ((handOn e w u).channel n) := by
  obtain ⟨state, -, timer, -, en⟩ := report
  refine ⟨fun drives discharge => ?stopping, fun drives discharge => ?off, fun drives discharge none => ?stays,
    fun stopping => ?goesOn⟩
  case stopping =>
    rw [Channel.stop_drives s.tick drives, if_neg discharge] at state timer en
    obtain ⟨state', en', timer'⟩ := handOn_goesOn (e := e) (w := w) (s := u) (n := n) (.inl (by rw [state]; exact nofun))
    exact ⟨state'.trans state, en'.trans en, timer'.trans timer⟩
  case off =>
    rw [Channel.stop_drives s.tick drives, if_pos discharge] at state timer en
    have off := handOn_offOrStarted (e := e) (w := w) (s := u) (n := n) (.inl ⟨state, en, timer⟩)
    exact off.imp (·.1) (·.1)
  case stays =>
    rw [Channel.stop_drives s.tick drives, if_pos discharge] at state timer en
    have noneJoins : NoneJoins n u := fun j q record waits here => by
      obtain ⟨q', record', waits', here'⟩ := queued j q record waits
      exact absurd (here'.trans here) (none j q' record' waits')
    rw [(Spares.handOn e w noneJoins).channel]
    exact ⟨state, en, timer⟩
  case goesOn =>
    rw [Channel.stop_idle s.tick (by rw [stopping]; rfl)] at state timer en
    obtain ⟨state', en', timer'⟩ := handOn_goesOn (e := e) (w := w) (s := u) (n := n)
      (.inl (by rw [state, stopping]; exact nofun))
    exact ⟨state'.trans (state.trans stopping), timer'.trans timer, en'.trans en⟩

/-! ## What the hand-offs leave where no walk admits anything -/

/-- Beside an evaluation nothing happens to the lists and the sums, where the walk can take nothing. -/
theorem handOn_settles (idle : u.mode ≠ .run ∨ (handOn e w u).shed ≠ .idle ∨
    ∀ j ∈ u.waitQueue, ∀ q, (u.slot j).record = some q → q.isQueued = false) : EvaluationKeeps u (handOn e w u) := by
  have evaluated : EvaluationKeeps u (if e then evaluate u else u) ∧ HandOff u (if e then evaluate u else u) := by
    split
    · exact ⟨evaluate_keeps u, evaluate_handOff u⟩
    · exact ⟨.refl u, .refl u⟩
  obtain same | walks := handOn_cases e w u
  · rw [same]
    exact evaluated.1
  obtain ⟨keeps, handed⟩ := evaluated
  rw [walks] at idle ⊢
  rwa [walk_idle]
  obtain mode | shed | none := idle
  · exact .inl (handed.frame.part.mode ▸ mode)
  · exact .inr (.inl ((WalkKeeps.walk _).shed ▸ shed))
  · refine .inr (.inr fun j waits q record => ?_)
    rw [keeps.waitQueue] at waits
    by_contra queued
    obtain ⟨q', record', queued', -⟩ := handed.queued_before record (by simpa using queued)
    rw [none j waits q' record'] at queued'
    cases queued'

/-! ## A record has left the sums and the lists -/

/-- The record `r` of slot `i` has left what counted it, its slot is no longer waiting, and no report has been made. -/
structure Detached (i : SlotId) (r : Record) (s v : State) : Prop where
  part      : SamePart s v
  slot      : ∀ q, (v.slot i).record = some q → q.isQueued = false
  others    : ∀ j, j ≠ i → v.slot j = s.slot j
  admission : v.admission = if r.isLive then without i s.admission else s.admission
  waitQueue : v.waitQueue = if r.isQueued then without i s.waitQueue else s.waitQueue
  shedList  : v.shedList = if r.isLive then without i s.shedList else s.shedList
  committed : v.committed = s.committed - r.liveAmount
  relief    : v.relief = s.relief - r.reliefAmount
  client    : ∀ c, (v.client c).committed = (s.client c).committed - only (decide (r.owner = c)) r.liveAmount
  channel   : ∀ m, v.channel m = if m = r.channel then (s.channel m).without r else s.channel m
  shed      : v.shed = s.shed
  flags     : v.flags = s.flags

theorem freeRecord_detached (i : SlotId) (r : Record) (s : State) : Detached i r s (freeRecord i r s) where
  part := (Steady.freeRecord i r s).part
  slot q record := by
    rw [freeRecord_slot, if_pos rfl] at record
    cases record
  others j other := by rw [freeRecord_slot, if_neg other]
  admission := detach_admission i r s
  waitQueue := detach_waitQueue i r s
  shedList := detach_shedList i r s
  committed := detach_committed i r s
  relief := detach_relief i r s
  client c := figure_freeRecord i r s (.client c)
  channel := freeRecord_channel i r s
  shed := by unfold freeRecord detach; split <;> rfl
  flags := by unfold freeRecord detach; split <;> rfl

theorem retireRecord_detached (i : SlotId) (r : Record) (reason : Reason) (s : State) :
    Detached i r s (retireRecord i r reason s) where
  part := (retireRecord_frame (f := fun j => j = i) (g := fun _ => False) r reason (.refl _ _ s) rfl).part
  slot q record := by
    rw [retireRecord_slot_same] at record
    cases record
    rfl
  others j other := retireRecord_slot_other r reason s other
  admission := (post_lists ..).1.trans (detach_admission i r s)
  waitQueue := (post_lists ..).2.1.trans (detach_waitQueue i r s)
  shedList := (post_lists ..).2.2.trans (detach_shedList i r s)
  committed := figure_retireRecord i r reason s .committed
  relief := figure_retireRecord i r reason s .relief
  client c := figure_retireRecord i r reason s (.client c)
  channel := retireRecord_channel_eq i r reason s
  shed := by unfold retireRecord post detach; split <;> split <;> rfl
  flags := by unfold retireRecord post detach; split <;> split <;> rfl

/-! ## The end of a record, with its hand-offs -/

/-- The record's channel after it has left the sums, with the last-grant report. -/
def Channel.reported (now : Tick) (r : Record) (x : Channel) : Channel :=
  if r.isLive = true ∧ (x.without r).live = 0 then (x.without r).stop now else x.without r

theorem Channel.without_drive (r : Record) (x : Channel) : SameDrive x (x.without r) := ⟨rfl, rfl, rfl, rfl, rfl⟩

theorem Channel.reported_counts (now : Tick) (r : Record) (x : Channel) : CountsKept (x.without r) (x.reported now r) := by
  unfold Channel.reported
  split
  · exact .stop _ _
  · exact ⟨rfl, rfl, rfl⟩

section
variable (gone : Detached i r s v)
include gone

theorem Detached.reported_channel (m : ChannelId) : (lastGrant r v).channel m =
    if m = r.channel then (s.channel m).reported s.tick r else s.channel m := by
  rw [lastGrant_eq, State.channel_setChannel, gone.part.tick, gone.channel, if_pos rfl]
  split
  · next here => rw [here]; rfl
  · next other => rw [gone.channel, if_neg other]

theorem Detached.queuedBefore : QueuedBefore s (lastGrant r v) := by
  intro j q record queued
  rw [lastGrant_slot] at record
  have other : j ≠ i := by
    rintro rfl
    rw [gone.slot q record] at queued
    cases queued
  rw [gone.others j other] at record
  exact ⟨q, record, queued, rfl⟩

theorem Detached.reported_part : SamePart s (lastGrant r v) := gone.part.trans (lastGrant_handOff r v).frame.part

/-- The last live grant of a channel: its last-grant report. -/
theorem Detached.stops (live : r.isLive = true) (last : (s.channel r.channel).live = 1) :
    Stops s r.channel (s.channel r.channel) ((handOn e w (lastGrant r v)).channel r.channel) := by
  refine handOn_stops ?_ gone.queuedBefore
  rw [gone.reported_channel, if_pos rfl, Channel.reported, if_pos ⟨live, by simp [Channel.without, only, live, last]⟩]
  exact ((s.channel r.channel).without_drive r).stop s.tick

/-- A channel with another live grant goes on. -/
theorem Detached.goesOn (live : r.isLive = true) (more : 2 ≤ (s.channel r.channel).live) :
    GoesOn (s.channel r.channel) ((handOn e w (lastGrant r v)).channel r.channel) := by
  have left : ((s.channel r.channel).without r).live ≠ 0 := by
    simp only [Channel.without, only, live, if_true]
    omega
  have same : (lastGrant r v).channel r.channel = (s.channel r.channel).without r := by
    rw [gone.reported_channel, if_pos rfl, Channel.reported, if_neg fun both => left both.2]
  have goes := handOn_goesOn (e := e) (w := w) (s := lastGrant r v) (n := r.channel) (.inr (same ▸ left))
  rw [same] at goes
  exact goes

/-- A record that was in no list but those of its phase is out of each. -/
theorem Detached.lists (listed : Listed i r s) : v.admission = s.admission.filter (fun j => decide (j ≠ i)) ∧
    v.waitQueue = s.waitQueue.filter (fun j => decide (j ≠ i)) ∧
    v.shedList = s.shedList.filter fun j => decide (j ≠ i) := by
  rw [gone.admission, gone.waitQueue, gone.shedList]
  simp only [← without_eq]
  refine ⟨ite_eq_left_iff.2 fun other => ?_, ite_eq_left_iff.2 fun other => ?_, ite_eq_left_iff.2 fun other => ?_⟩
  · exact (without_of_not_mem (listed.live (Bool.eq_false_iff.2 other)).1).symm
  · exact (without_of_not_mem (listed.queued (Bool.eq_false_iff.2 other))).symm
  · exact (without_of_not_mem (listed.live (Bool.eq_false_iff.2 other)).2).symm

/-- Where no walk takes anything, the sums have fallen by the share of the record. -/
theorem Detached.sumsFall (listed : Listed i r s) (keeps : EvaluationKeeps (lastGrant r v) t) : SumsFall i r s t := by
  obtain ⟨admission, waitQueue, -⟩ := gone.lists listed
  obtain ⟨reportedAdmission, reportedWaitQueue, -⟩ := lastGrant_lists r v
  have counts (m : ChannelId) : CountsKept (if m = r.channel then (s.channel m).without r else s.channel m)
      (t.channel m) := by
    rw [keeps.channel, gone.reported_channel]
    split
    · exact Channel.reported_counts ..
    · exact ⟨rfl, rfl, rfl⟩
  have committed : (lastGrant r v).committed = v.committed := figure_lastGrant r v .committed
  refine ⟨?_, ?_, ?_, fun c => ?_, fun m => ?_, fun m => ?_, fun m => ?_⟩
  · exact keeps.admission.trans (reportedAdmission.trans admission)
  · exact keeps.waitQueue.trans (reportedWaitQueue.trans waitQueue)
  · exact keeps.committed.trans (committed.trans gone.committed)
  · rw [keeps.client, lastGrant_client, gone.client]
    simp only [only, Record.liveAmount, decide_eq_true_eq, eq_comm (a := r.owner), ite_and]
  · rw [(counts m).sum]
    split <;> simp_all [Channel.without, Record.liveAmount]
  · rw [(counts m).live]
    split <;> simp_all [Channel.without, only]
  · rw [(counts m).queued]
    split <;> simp_all [Channel.without, only]

/-- The end of a record that no evaluation follows leaves the shed engine, but for its slot. -/
theorem Detached.shedKept (listed : Listed i r s) (unnoticed : r.notice? = none) :
    ShedKeptBut i s (handOn false w (lastGrant r v)) := by
  obtain ⟨shed, shedList, relief, flags⟩ := handOn_false_kept w (lastGrant r v)
  have reported : (lastGrant r v).shed = v.shed ∧ (lastGrant r v).flags = v.flags := by
    rw [lastGrant_eq]
    exact ⟨rfl, rfl⟩
  have fallen : (lastGrant r v).relief = v.relief := figure_lastGrant r v .relief
  refine ⟨shed.trans (reported.1.trans gone.shed), ?_, ?_, flags.trans (reported.2.trans gone.flags)⟩
  · exact shedList.trans ((lastGrant_lists r v).2.2.trans (gone.lists listed).2.2)
  · rw [relief, fallen, gone.relief, Record.reliefAmount, unnoticed]
    rfl

/-- The end of a record, with its last-grant report and its hand-offs (R20). -/
theorem Detached.ends (listed : Listed i r s) : Ends i r s (handOnChange r.ending (lastGrant r v)) where
  sums idle := by
    refine gone.sumsFall listed (handOn_settles ?_)
    obtain mode | shed | none := idle
    · exact .inl (gone.reported_part.mode.symm ▸ mode)
    · exact .inr (.inl shed)
    · refine .inr (.inr fun j waits q record => ?_)
      rw [(lastGrant_lists r v).2.1, (gone.lists listed).2.1, List.mem_filter, decide_eq_true_eq] at waits
      exact absurd (none j waits.1) waits.2
  shed unnoticed calm := by
    have shed : (lastGrant r v).shed = s.shed := by
      rw [lastGrant_eq]
      exact gone.shed
    have quiet : (r.ending.resolved || (r.ending.fell && decide ((lastGrant r v).shed = .strained))) = false := by
      rw [shed]
      unfold Record.notice? at unnoticed
      unfold Record.isLive at calm
      unfold Record.ending
      split <;> simp_all
    rw [handOnChange, quiet]
    exact gone.shedKept listed unnoticed
  last live last := gone.stops live last
  other live more := gone.goesOn live more

end

theorem Ends.same (h : Ends i r s t) (body : SameBody t u) : Ends i r s u := by
  obtain ⟨sums, shed, last, other⟩ := h
  simp only [NoWalk, ← body.shed] at sums
  refine ⟨fun idle => ?_, fun unnoticed calm => ?_, fun live one => ?_, fun live more => ?_⟩
  · obtain ⟨admission, waitQueue, committed, client, sum, live, queued⟩ := sums idle
    constructor <;> simpa only [body.admission, body.waitQueue, body.committed, body.client, body.channel]
  · obtain ⟨shed, shedList, relief, flags⟩ := shed unnoticed calm
    exact ⟨body.shed.trans shed, body.shedList.trans shedList, body.relief.trans relief, body.flags.trans flags⟩
  · rw [body.channel]
    exact last live one
  · rw [body.channel]
    exact other live more

/-- A record freed with its hand-offs. -/
theorem freed_ends (collections : CollectionsExact s) (record : (s.slot i).record = some r) (standing : r.isRetired = false) :
    Frees i r s (handOnChange r.ending (freeReporting i r s)) ∧ Ends i r s (handOnChange r.ending (freeReporting i r s)) :=
  ⟨(freeReporting_frees standing (collections.listed record)).handOff (handOnChange_handOff ..),
    (freeRecord_detached i r s).ends (collections.listed record)⟩

/-- A record retired with its hand-offs. -/
theorem retired_ends (collections : CollectionsExact s) (record : (s.slot i).record = some r) (standing : r.isRetired = false)
    (reason : Reason) : Retires i r reason s (handOnChange r.ending (retireReporting reason i r s)) ∧
      Ends i r s (handOnChange r.ending (retireReporting reason i r s)) :=
  ⟨(retireReporting_retires reason standing (collections.listed record)).handOff (handOnChange_handOff ..),
    (retireRecord_detached i r reason s).ends (collections.listed record)⟩

/-! ## RELEASE, the answers that free, and the retirements -/

/-- A command that frees its record. -/
theorem takes_freed {k : Instr} {a : Reply} {f : State → State × Reply} (hx : exec k s = command p k f s)
    (settled : s.resetSafe = false) (acts : f s = (handOnChange r.ending (freeReporting i r s), a))
    (collections : CollectionsExact s) (record : (s.slot i).record = some r) (standing : r.isRetired = false) :
    Takes p k a s fun t => Frees i r s t ∧ Ends i r s t := by
  obtain ⟨frees, ends⟩ := freed_ends collections record standing
  exact takes_of hx settled acts ((freeReporting_ports i r s).trans (handOnChange_handOff ..).ports)
    fun u part body => ⟨frees.same part body, ends.same body⟩

/-- Settles O23: RELEASE frees the record, or refuses a tombstone. -/
theorem releaseFreesTheRecord : Obligations.ReleaseFreesTheRecord := by
  intro p c h i r s own collections
  have found := own.ownRecord
  refine ⟨fun standing => ?_, fun retired => ?_⟩
  · refine takes_freed rfl own.may.settled ?_ collections own.names.record standing
    simp only [releaseAct, found, standing, Bool.false_eq_true, if_false]
    rfl
  · refine refused_only_answers own.may.settled rfl ?_
    simp only [releaseAct, found, retired, if_true]
    rfl

theorem answerAct_noticed (own : NamesOwn p c h i r s) (noticed : r.notice? = some n) (k : AnswerKind) :
    answerAct k true p c h s = answerNotice k i r n s := by
  obtain ⟨powered, lease, live⟩ := Record.phase_of_notice noticed
  simp only [answerAct, own.ownRecord, live]

/-- Settles O29: each of the three answers frees the record. -/
theorem answersThatFree : Obligations.AnswersThatFree := by
  intro p c h i r n s own noticed collections ends
  have standing := Record.not_retired_of_notice noticed
  refine ⟨fun none => ?ack, ?nak, fun limit => ?busy⟩
  case ack =>
    refine takes_freed rfl own.may.settled ?_ collections own.names.record standing
    rw [answerAct_noticed own noticed, answerNotice, if_pos none]
    rfl
  case nak => exact takes_freed rfl own.may.settled (answerAct_noticed own noticed .nak) collections own.names.record standing
  case busy =>
    refine takes_freed (f := answerAct .busy true p c h) rfl own.may.settled ?_ collections own.names.record standing
    rw [answerAct_noticed own noticed, answerNotice, if_neg (Nat.not_lt.2 limit)]
    rfl

/-- An expiry that is due retires its record. -/
theorem happens_retired {k : Instr} {b : Bool} {f : State → State} {reason : Reason} (hx : exec k s = claimWhen b f s)
    (due : b = true) (settled : s.resetSafe = false)
    (acts : f s = handOnChange r.ending (retireReporting reason i r s)) (collections : CollectionsExact s)
    (record : (s.slot i).record = some r) (standing : r.isRetired = false) :
    Happens k s fun t => Retires i r reason s t ∧ Ends i r s t := by
  obtain ⟨retires, ends⟩ := retired_ends collections record standing reason
  exact happens_of (hx.trans (claimWhen_arises f s due)) settled acts
    ((retireReporting_ports reason i r s).trans (handOnChange_handOff ..).ports)
    fun u part body => ⟨retires.same part body, ends.same body⟩

theorem forceRetire_names (may : SupervisorMayAct p c s) (serves : s.mode.serves = true)
    (handle : h.toNat = handleOf i (s.slot i).gen) (record : (s.slot i).record = some r) :
    namedRecord [(supervisorMaySend p c, .denied), (s.mode.serves, .mode)] true h (fun _ => true) s = .ok (i, r) := by
  refine namedRecord_ok ?_ handle record rfl
  simp [supervisorMaySend, firstFailure, may.port, may.client, serves, handleOk_of handle]

/-- Settles O39: FORCE_RETIRE and the three expiries retire the record, each with its reason. -/
theorem recordsRetireWithTheirReasons : Obligations.RecordsRetireWithTheirReasons := by
  intro i r s record collections settled retires
  refine ⟨fun p c h may serves handle => ?forced, fun powered d n live due => ?lease, fun d queued due => ?wait,
    fun n noticed due => ?notice⟩
  case forced =>
    have found := forceRetire_names may serves handle record
    refine ⟨fun standing => ?_, fun retired => ?_⟩
    · obtain ⟨retires, ends⟩ := retired_ends collections record standing .forced
      refine takes_of (f := forceRetireAct p c h) (t := handOnChange r.ending (retireReporting .forced i r s)) rfl settled ?_
        ((retireReporting_ports .forced i r s).trans (handOnChange_handOff ..).ports)
        fun u part body => ⟨retires.same part body, ends.same body⟩
      simp only [forceRetireAct, found, standing, Bool.false_eq_true, if_false]
      rfl
    · refine refused_only_answers (f := forceRetireAct p c h) settled rfl ?_
      simp only [forceRetireAct, found, retired, if_true]
      rfl
  case lease =>
    refine happens_retired rfl ?_ settled ?_ collections record (Record.not_retired_of_live live)
    · simp [placeDue, deadlineOf, record, live, due]
    · simp only [takeLease, record, live, due, if_true]
  case wait =>
    refine happens_retired rfl ?_ settled ?_ collections record (by simp [Record.isRetired, queued])
    · simp [placeDue, deadlineOf, record, queued, due]
    · simp only [takeWait, record, queued, due, if_true]
  case notice =>
    obtain ⟨powered, lease, live⟩ := Record.phase_of_notice noticed
    refine happens_retired rfl ?_ settled ?_ collections record (Record.not_retired_of_live live)
    · simp [placeDue, deadlineOf, record, noticed, due]
    · simp only [takeNotice, record, live, due, if_true]

/-! ## The room that a RELEASE makes (R20, R68, R69) -/

/-- A RELEASE of a record that is no tombstone, by what its hand-offs leave. -/
theorem takes_released {P : State → Prop} (own : NamesOwn p c h i r s) (standing : r.isRetired = false)
    (leaves : ∀ u, SameBody (handOnChange r.ending (freeReporting i r s)) u → P u) :
    Takes p (.release p c h) { result := .ok } s P := by
  refine takes_of (t := handOnChange r.ending (freeReporting i r s)) rfl own.may.settled ?_
    ((freeReporting_ports i r s).trans (handOnChange_handOff ..).ports) fun u _ body => leaves u body
  simp only [releaseAct, own.ownRecord, standing, Bool.false_eq_true, if_false]
  rfl

theorem Channel.reported_profile (now : Tick) (r : Record) (x : Channel) : (x.reported now r).profile = x.profile := by
  unfold Channel.reported
  split
  · exact (ChannelKept.stop now (x.without r)).profile
  · rfl

theorem Channel.reported_cool (now : Tick) (r : Record) (cool : x.state ≠ .faulted) : (x.reported now r).state ≠ .faulted := by
  unfold Channel.reported
  split
  · rw [Channel.stop_state]
    split
    · split <;> exact nofun
    · exact cool
  · exact cool

/-- The head of the queue fits after the record has been freed, and the walk takes it. -/
theorem visit_released (record : (s.slot j).record = some q) (queued : q.isQueued = true) (other : j ≠ i)
    (live : r.isLive = true) (cool : (s.channel q.channel).state ≠ .faulted)
    (ceiling : (s.channel q.channel).sum - (if q.channel = r.channel then r.amount else 0) + q.amount
      ≤ (s.channel q.channel).profile.ceiling)
    (room : (s.committed - r.amount) + q.amount + (if q.cls = 0 then 0 else s.settings.reserve0) ≤ s.budget) :
    visit j (freeReporting i r s) = .take := by
  have gone := freeRecord_detached i r s
  have channel := gone.reported_channel q.channel
  have committed : (freeReporting i r s).committed = s.committed - r.amount := by
    rw [show (freeReporting i r s).committed = (freeRecord i r s).committed from figure_lastGrant r _ .committed,
      gone.committed, Record.liveAmount, if_pos live]
  refine visit_of_fits (by rw [freeReporting_slot, if_neg other, record]) queued ?_ ?_ (headroom_of_room ?_)
  · rw [freeReporting, channel]
    split
    · exact Channel.reported_cool _ r cool
    · exact cool
  · rw [freeReporting, channel]
    split
    · next same =>
      rw [if_pos same] at ceiling
      rw [(Channel.reported_counts ..).sum, Channel.reported_profile, Channel.without, Record.liveAmount, if_pos live]
      exact ceiling
    · next apart =>
      rw [if_neg apart] at ceiling
      exact ceiling
  · have part : SamePart s (freeReporting i r s) := gone.reported_part
    rw [committed, part.budget, part.settings]
    exact room

/-- The hand-offs of the end of an ACTIVE record, in the shed state IDLE, are one walk. -/
theorem handOnChange_released (active : r.isActive = true) (idle : s.shed = .idle) :
    handOnChange r.ending (freeReporting i r s) = walk (freeReporting i r s) := by
  obtain ⟨powered, lease, live⟩ := Record.phase_of_active active
  have shed := (freeReporting_shed i r s).trans idle
  simp [handOnChange, Record.ending, live, shed, handOn]

/-- Settles O24: the walk of the claim takes the head of the queue, and the last-grant report comes before it. -/
theorem releasesAreHandedOn : Obligations.ReleasesAreHandedOn := by
  have standing {r : Record} (live : r.isLive = true) : r.isRetired = false := by
    obtain ⟨powered, lease, notice, phase⟩ := Record.isLive_iff.1 live
    exact Record.not_retired_of_live phase
  have stops {p : PortId} {c : ClientId} {h : Half} {i : SlotId} {r : Record} {s : State} (own : NamesOwn p c h i r s)
      (live : r.isLive = true) (last : (s.channel r.channel).live = 1) :
      Takes p (.release p c h) { result := .ok } s fun t =>
        Stops s r.channel (s.channel r.channel) (t.channel r.channel) := by
    refine takes_released own (standing live) fun u body => ?_
    rw [body.channel]
    exact (freeRecord_detached i r s).stops live last
  refine ⟨fun p c h i j r q rest s own active run idle head record queued cool ceiling room => ?admits,
    fun p c h i r s own live drives last discharge => ?stopping, fun p c h i r s own live last => stops own live last⟩
  case admits =>
    obtain ⟨powered, lease, live⟩ := Record.phase_of_active active
    have isLive : r.isLive = true := Record.isLive_iff.2 ⟨_, _, _, live⟩
    have waits : r.isQueued = false := by simp [Record.isQueued, live]
    have other : j ≠ i := by
      rintro rfl
      obtain rfl : r = q := Option.some.inj (own.names.record.symm.trans record)
      rw [waits] at queued
      cases queued
    have gone := freeRecord_detached i r s
    have queue : (freeReporting i r s).waitQueue = j :: rest := by
      rw [freeReporting, (lastGrant_lists ..).2.1, gone.waitQueue, waits]
      exact head
    refine takes_released own (standing isLive) fun u body => WasAdmitted.same ?_ body
    rw [handOnChange_released active idle]
    exact (walk_admits_head (s := freeReporting i r s) (gone.reported_part.mode.trans run)
      ((freeReporting_shed i r s).trans idle) queue (by rw [freeReporting_slot, if_neg other, record])
      (visit_released record queued other isLive cool ceiling room)).1
  case stopping =>
    obtain ⟨t, runs, answered, driven, report⟩ := stops own live last
    exact ⟨t, runs, answered, driven, report.stopping drives discharge⟩

end Sys2Proof.Machine
end

section
/-! PROOF. O25, O26, O28, O30: RESIZE in both directions, ACK above 0, and BUSY below the busy limit. -/

namespace Sys2Proof.Machine

/- One proof after another: side by side they need more memory than the check allows. -/
set_option Elab.async false

variable {s t u v b : State} {p : PortId} {c : ClientId} {h : Half} {i j : SlotId} {r r₁ r' q : Record} {n : Notice}
  {e w powered : Bool} {lease : Option Tick}

/-! ## BUSY below the busy limit (R92) -/

/-- Settles O30: the answer writes the record of its slot. -/
theorem busyExtendsTheNotice : Obligations.BusyExtendsTheNotice := by
  intro p c h i r n powered lease s own live below due again
  have noticed : r.notice? = some n := by simp [Record.notice?, live]
  refine takes_setRecord (f := answerAct .busy true p c h) rfl own.may.settled ?_
  rw [answerAct_noticed own noticed, answerNotice, if_pos below, extend]
  simp only [live]
  rfl

/-! ## A change of amount, before its hand-offs (R18) -/

/-- The record `r` of slot `i` has become `r'` with its new amount in every sum, and nothing has been handed on. -/
structure Repriced (i : SlotId) (r r' : Record) (s v : State) : Prop where
  reamounts : Reamounts i r r' s v
  slot      : v.slot i = { gen := (s.slot i).gen, record := some r' }
  ports     : SamePorts s v
  admission : v.admission = s.admission
  waitQueue : v.waitQueue = s.waitQueue
  committed : v.committed = s.committed - r.amount + r'.amount
  client    : ∀ c, (v.client c).committed =
    if c = r.owner then (s.client c).committed - r.amount + r'.amount else (s.client c).committed
  channel   : ∀ n, v.channel n = if n = r.channel
    then { s.channel n with sum := (s.channel n).sum - r.amount + r'.amount } else s.channel n

theorem changeAmount_repriced (i : SlotId) (r : Record) (a : Nat) (s : State) :
    Repriced i r (r.reamounted a) s (changeAmount i r a s) where
  reamounts := changeAmount_reamounts i r a s
  slot := (changeAmount_slot i i r a s).trans (if_pos rfl)
  ports := (Steady.changeAmount i r a s).ports
  admission := rfl
  waitQueue := rfl
  committed := rfl
  client c := by
    rw [changeAmount_client]
    split <;> rfl
  channel := changeAmount_channel i r a s

/-- A change of amount after an end of the notice of the same grant. -/
theorem Repriced.after (h : Repriced i r₁ r' b v) (handed : HandOff s b) (keeps : EvaluationKeeps s b)
    (grant : SameGrant r r₁) : Repriced i r r' s v := by
  obtain ⟨⟨moves, held, occupied, frame⟩, slot, ports, admission, waitQueue, committed, client, channel⟩ := h
  have gen := (handed.frame.slots i id).gen
  rw [gen] at moves slot
  simp only [grant.owner, grant.amount] at held client
  simp only [grant.channel, grant.amount, keeps.channel] at channel
  refine ⟨⟨moves, fun c => ?_, fun c => ?_, ?_⟩, slot, handed.ports.trans ports, admission.trans keeps.admission,
    waitQueue.trans keeps.waitQueue, ?_, fun c => ?_, channel⟩
  · rw [held, (handed.holdings c).1]
  · rw [occupied, (handed.holdings c).2]
  · exact (handed.frame.mono (fun _ => False.elim) fun _ => id).trans frame
  · rw [committed, keeps.committed, grant.amount]
  · rw [client, keeps.client]

/-- The record after ACK with a required amount above 0 (R90). -/
def Record.accepted (powered : Bool) (lease : Option Tick) (n : Notice) (r : Record) : Record :=
  { r with amount := n.required, floor := r.floor.filter (fun f => decide (f < n.required)),
           phase := .live powered lease none, kinds := { r.kinds with reduce := false } }

theorem acceptNotice_repriced (record : (s.slot i).record = some r) (live : r.phase = .live powered lease (some n)) :
    Repriced i r (r.accepted powered lease n) s (acceptNotice i n.required s) := by
  rw [acceptNotice_eq record live]
  have ended : (noticeEnded i r powered lease n s).slot i =
      { gen := (s.slot i).gen, record := some { r with phase := .live powered lease none } } := by
    rw [noticeEnded_slot, if_pos rfl]
  refine (changeAmount_repriced i { r with phase := .live powered lease none, kinds := { r.kinds with reduce := false } }
    n.required _).after (r := r) ?_ ?_ (by constructor <;> rfl)
  · rw [← endNotice_noticed record live] at ended ⊢
    exact (endNotice_handOff i s).trans (setKinds_handOff _ (by rw [ended]) rfl)
  · exact EvaluationKeeps.trans (t := noticeEnded i r powered lease n s) ⟨rfl, rfl, rfl, rfl, fun _ => rfl⟩
      (.setKinds ..)

/-! ## What an evaluation does to an ACTIVE record (R83 to R86) -/

/-- The record `r` of slot `i` has been chosen as a victim, with a required amount below its amount. -/
def Chosen (i : SlotId) (r : Record) (powered : Bool) (lease : Option Tick) (s t : State) : Prop :=
  ∃ required, required < r.amount ∧ i ∈ t.shedList ∧
    t.slot i = { gen := (s.slot i).gen,
                 record := some { r with phase := .live powered lease (some (freshNotice required s))
                                         kinds := { r.kinds with withdrawn := false, reduce := true } } }

theorem postReduce_shedList_mem (i : SlotId) (required : Nat) (s : State) (member : j ∈ s.shedList) :
    j ∈ (postReduce i required s).shedList := by
  obtain same | ⟨r, p, l, record, live, -⟩ := postReduce_cases i required s
  · rw [same]
    exact member
  · rw [postReduce_shedList record live]
    exact List.mem_append_left _ member

/-- A record that has a notice is asked for nothing more. -/
theorem postReduce_noticed (required : Nat) (record : (s.slot i).record = some r) (noticed : r.notice? = some n) :
    postReduce i required s = s := by
  obtain same | ⟨q, p, l, record', live, -⟩ := postReduce_cases i required s
  · exact same
  · obtain rfl : r = q := Option.some.inj (record.symm.trans record')
    simp [Record.notice?, live] at noticed

/-- One choice of the evaluation leaves the record ACTIVE, or makes it the victim. -/
theorem chooseVictims_active (record : (s.slot i).record = some r) (live : r.phase = .live powered lease none)
    (positive : 1 ≤ r.amount) (l : List SlotId) :
    (chooseVictims l s).slot i = s.slot i ∨ Chosen i r powered lease s (chooseVictims l s) := by
  refine (chooseVictims_keepsWhere
    (P := fun t => SamePart s t ∧ (t.slot i = s.slot i ∨ Chosen i r powered lease s t)) ⟨.refl s, .inl rfl⟩ ?_).2
  rintro j q t found above ⟨part, either⟩
  refine ⟨part.trans (postReduce_handOff j _ t).frame.part, ?_⟩
  by_cases here : j = i
  · subst here
    obtain same | ⟨required, below, member, chosen⟩ := either
    · rw [same, record] at found
      obtain rfl := Option.some.inj found
      refine .inr ⟨_, requiredOf_lt (Nat.sub_pos_of_lt above) positive, ?_, ?_⟩
      · rw [postReduce_shedList (same ▸ record) live]
        exact List.mem_append_right _ List.mem_cons_self
      · rw [postReduce_slot_same (same ▸ record) live, same, freshNotice, part.tick, part.settings]
        rfl
    · rw [postReduce_noticed _ (congrArg Slot.record chosen) rfl]
      exact .inr ⟨required, below, member, chosen⟩
  · have other := postReduce_slot_other (requiredOf q (projected t - t.budget)) t (Ne.symm here)
    rw [other]
    refine either.imp id ?_
    rintro ⟨required, below, member, chosen⟩
    exact ⟨required, below, postReduce_shedList_mem j _ t member, other.trans chosen⟩

/-- A withdrawal goes to records that have a notice. -/
theorem withdrawFrom_active (record : (s.slot i).record = some r) (unnoticed : r.notice? = none) (l : List SlotId) :
    (withdrawFrom l s).slot i = s.slot i := by
  refine withdrawFrom_keeps (P := fun t => t.slot i = s.slot i) rfl fun j q t found noticed same => ?_
  have other : i ≠ j := by
    rintro rfl
    rw [same, record] at found
    obtain rfl := Option.some.inj found
    rw [unnoticed] at noticed
    cases noticed
  exact (withdrawNotice_slot_other t other).trans same

/-- An evaluation at or below the budget leaves a record without a notice. -/
theorem evaluate_within_slot (record : (s.slot i).record = some r) (unnoticed : r.notice? = none)
    (within : projected s ≤ s.budget) : (evaluate s).slot i = s.slot i := by
  rw [evaluate_eq_weigh, weigh_within within]
  exact withdrawFrom_active record unnoticed _

/-- An evaluation leaves an ACTIVE record, or chooses it. -/
theorem evaluate_active (record : (s.slot i).record = some r) (live : r.phase = .live powered lease none)
    (positive : 1 ≤ r.amount) : (evaluate s).slot i = s.slot i ∨
      r.cls ≠ 0 ∧ (evaluate s).shed = .shedding ∧ Chosen i r powered lease s (evaluate s) := by
  by_cases above : s.budget < projected s
  · by_cases candidate : i ∈ candidates s
    · obtain ⟨-, q, found, -, cls⟩ := mem_candidates.1 candidate
      obtain rfl : r = q := Option.some.inj (record.symm.trans found)
      have chosen := chooseVictims_active record live positive (candidates s)
      refine chosen.imp (fun same => ?_) fun ⟨required, below, member, chosen⟩ => ?_
      · rw [evaluate_above above]
        exact same
      · have listed : i ∈ (evaluate s).shedList := by
          rw [evaluate_above above]
          exact member
        refine ⟨cls, (evaluate_settled s).shedding.2 (List.ne_nil_of_mem listed), required, below, listed, ?_⟩
        rw [evaluate_above above]
        exact chosen
    · refine .inl ?_
      rw [evaluate_above above]
      exact chooseVictims_slot_other s candidate
  · exact .inl (evaluate_within_slot record (by simp [Record.notice?, live]) (not_lt.1 above))

/-- A walk leaves a live record. -/
theorem walk_slot_live (record : (s.slot i).record = some r) (live : r.isLive = true) : (walk s).slot i = s.slot i := by
  refine walk_keeps (P := fun t => t.slot i = s.slot i) rfl fun j t taken same => ?_
  obtain ⟨q, found, queued, -⟩ := visit_take taken
  have other : i ≠ j := by
    rintro rfl
    rw [same, record] at found
    obtain rfl := Option.some.inj found
    rw [Record.not_live_of_queued queued] at live
    cases live
  exact (admitQueued_slot_other t other).trans same

/-- The hand-offs of a claim leave an ACTIVE record, or their evaluation chooses it. -/
theorem handOn_active (record : (s.slot i).record = some r) (live : r.phase = .live powered lease none)
    (positive : 1 ≤ r.amount) : (handOn e w s).slot i = s.slot i ∨
      r.cls ≠ 0 ∧ (handOn e w s).shed = .shedding ∧ Chosen i r powered lease s (handOn e w s) := by
  have isLive : r.isLive = true := Record.isLive_iff.2 ⟨_, _, _, live⟩
  have evaluated : (if e then evaluate s else s).slot i = s.slot i ∨ r.cls ≠ 0 ∧
      (if e then evaluate s else s).shed = .shedding ∧ Chosen i r powered lease s (if e then evaluate s else s) := by
    split
    · exact evaluate_active record live positive
    · exact .inl rfl
  generalize hstate : (if e then evaluate s else s) = t at evaluated
  obtain same | walks := handOn_cases e w s
  · rw [same, hstate]
    exact evaluated
  · rw [walks, hstate]
    obtain same | ⟨cls, shed, required, below, member, chosen⟩ := evaluated
    · exact .inl ((walk_slot_live (same ▸ record) isLive).trans same)
    · obtain ⟨shedKept, shedList, -, -⟩ := ShedAndFlagsKept.walk t
      refine .inr ⟨cls, shedKept.trans shed, required, below, shedList ▸ member, ?_⟩
      exact (walk_slot_live (congrArg Slot.record chosen) rfl).trans chosen

/-! ## A change of amount, with its hand-offs (R20) -/

/-- A record with a new amount, after the hand-offs of its claim. -/
theorem Repriced.becomes (h : Repriced i r r' s v) (live : r'.phase = .live powered lease none) (positive : 1 ≤ r'.amount)
    (calm : r.notice? = none → s.shed ≠ .strained → e = false ∧ ShedAndFlagsKept s v) :
    Becomes i r r' s (handOn e w v) := by
  obtain ⟨reamounts, slot, ports, admission, waitQueue, committed, client, channel⟩ := h
  have record : (v.slot i).record = some r' := congrArg Slot.record slot
  have part := reamounts.frame.part
  have settles (idle : NoWalk i s (handOn e w v)) : EvaluationKeeps v (handOn e w v) := by
    refine handOn_settles ?_
    obtain mode | shed | none := idle
    · exact .inl (part.mode.symm ▸ mode)
    · exact .inr (.inl shed)
    · refine .inr (.inr fun j waits q found => ?_)
      obtain rfl := none j (waitQueue ▸ waits)
      obtain rfl := Option.some.inj (record.symm.trans found)
      simp [Record.isQueued, live]
  refine ⟨?_, fun unnoticed quiet => ?_, fun idle => ?_, fun idle => ?_, fun idle c => ?_, fun idle n => ?_, fun some => ?_⟩
  · refine (handOn_active record live positive).imp (·.trans slot) ?_
    rintro ⟨cls, shed, required, below, listed, chosen⟩
    refine ⟨powered, lease, required, live, below, cls, shed, listed, chosen.trans ?_⟩
    rw [slot, freshNotice, part.tick, part.settings]
  · obtain ⟨rfl, kept⟩ := calm unnoticed quiet
    obtain ⟨shed, shedList, relief, flags⟩ := handOn_false_kept w v
    refine ⟨?_, shed.trans kept.shed, shedList.trans kept.shedList, relief.trans kept.relief, flags.trans kept.flags⟩
    obtain ⟨-, same⟩ | walks := handOn_false_cases w v
    · exact same.symm ▸ slot
    · rw [walks]
      exact (walk_slot_live record (Record.isLive_iff.2 ⟨_, _, _, live⟩)).trans slot
  · exact ⟨(settles idle).admission.trans admission, (settles idle).waitQueue.trans waitQueue⟩
  · exact (settles idle).committed.trans committed
  · exact ((settles idle).client c).trans (client c)
  · rw [(settles idle).channel, channel]
    split <;> rfl
  · have same : v.channel r.channel =
        { s.channel r.channel with sum := (s.channel r.channel).sum - r.amount + r'.amount } :=
      (channel r.channel).trans (if_pos rfl)
    have goes := handOn_goesOn (e := e) (w := w) (s := v) (n := r.channel) (.inr (by rw [same]; exact some))
    rw [same] at goes
    exact goes

theorem Becomes.same (h : Becomes i r r' s t) (body : SameBody t u) : Becomes i r r' s u := by
  obtain ⟨slot, calm, admission, committed, client, sum, goesOn⟩ := h
  simp only [NoWalk, ← body.shed] at admission committed client sum
  refine ⟨?_, fun unnoticed quiet => ?_, fun idle => ?_, fun idle => ?_, fun idle c => ?_, fun idle n => ?_, fun some => ?_⟩
  · simpa only [NoticedAnew, body.slot, body.shed, body.shedList] using slot
  · rw [body.slot]
    exact ⟨(calm unnoticed quiet).1, (calm unnoticed quiet).2.same body⟩
  · rw [body.admission, body.waitQueue]
    exact admission idle
  · rw [body.committed]
    exact committed idle
  · rw [body.client]
    exact client idle c
  · rw [body.channel]
    exact sum idle n
  · rw [body.channel]
    exact goesOn some

/-! ## RESIZE (R72 to R75) -/

/-- The action of RESIZE on a record of its own, with an amount in range. -/
theorem resizeAct_own {amount : Half} (own : NamesOwn p c h i r s) (least : 1 ≤ amount.toNat) (most : amount.toNat ≤ 2500) :
    resizeAct p c h amount s =
      if !r.isActive then refuse .badState s
      else if amount.toNat = r.amount then taken (byte2 amount.toNat) s
      else if amount.toNat < r.amount then
        taken (byte2 amount.toNat) (handOnChange { fell := true } (changeAmount i r amount.toNat s))
      else checked (growChecks r amount.toNat) (fun s => taken (byte2 amount.toNat) (grow i r amount.toNat s)) s := by
  have inRange : within 1 2500 amount.toNat = true := by
    rw [within_eq, decide_eq_true_eq]
    exact ⟨least, most⟩
  simp only [resizeAct, inRange, own.changeRecord]

/-- Settles O25: a record that is not ACTIVE is refused, the same amount changes nothing, and a lower one is stored. -/
theorem resizeDownLowersTheAmount : Obligations.ResizeDownLowersTheAmount := by
  intro p c h amount i r s own least most
  have acts := resizeAct_own own least most
  refine ⟨fun idle => ?badState, fun active same => ?same, fun active below => ?lower⟩
  case badState =>
    rw [idle] at acts
    exact refused_only_answers own.may.settled rfl acts
  case same =>
    rw [active, if_pos same, same] at acts
    exact refused_only_answers own.may.settled rfl acts
  case lower =>
    intro r'
    rw [active, if_neg below.ne, if_pos below] at acts
    obtain ⟨powered, lease, live⟩ := Record.phase_of_active active
    have repriced := changeAmount_repriced i r amount.toNat s
    have handed := handOnChange_handOff { fell := true } (changeAmount i r amount.toNat s)
    refine takes_of (f := resizeAct p c h amount) rfl own.may.settled acts (repriced.ports.trans handed.ports)
      fun u part body => ⟨(repriced.reamounts.handOff handed).same part body, Becomes.same ?_ body⟩
    exact repriced.becomes (powered := powered) (lease := lease) live least fun _ quiet =>
      ⟨decide_eq_false quiet, rfl, rfl, rfl, rfl⟩

/-- Settles O26: the tests of R74 decide, and what passes them is written. -/
theorem resizeUpRaisesTheAmount : Obligations.ResizeUpRaisesTheAmount := by
  intro p c h amount i r s own active above most
  have acts := resizeAct_own own (by omega) most
  rw [active, if_neg above.ne', if_neg above.not_gt] at acts
  have acts : resizeAct p c h amount s =
      checked (growChecks r amount.toNat) (fun s => taken (byte2 amount.toNat) (grow i r amount.toNat s)) s := acts
  refine ⟨fun e fails => ?refused, fun passes => ?grows⟩
  case refused =>
    rw [checked_of_failure _ ((growChecks_eq r amount.toNat s).symm ▸ fails)] at acts
    exact refused_only_answers own.may.settled rfl acts
  case grows =>
    rw [checked_of_pass _ ((growChecks_eq r amount.toNat s).symm ▸ passes)] at acts
    refine takes_of (f := resizeAct p c h amount) rfl own.may.settled acts (Steady.grow i r amount.toNat s).ports
      fun u part body => ?_
    have owner := own.owner
    subst owner
    refine ⟨?_, ?_, ?_, ?_, ?_, ?_, ?_, ?_⟩
    · rw [body.slot]
      exact (changeAmount_slot i i r amount.toNat s).trans (if_pos rfl)
    · rw [body.admission, ← without_eq]
      rfl
    · exact body.committed
    · rw [body.channel]
      exact (changeAmount_channel i r amount.toNat s r.channel).trans (if_pos rfl)
    · rw [body.client]
      exact (changeAmount_client i r amount.toNat s r.owner).trans (if_pos rfl)
    · exact body.waitQueue
    · exact ⟨body.shed, body.shedList, body.relief, body.flags⟩
    · refine Untouched.same (t := grow i r amount.toNat s) ⟨(Steady.grow i r amount.toNat s).part, fun j other => ?_,
        fun n other => ?_, fun d other => ?_⟩ part body
      · exact (changeAmount_slot i j r amount.toNat s).trans (if_neg other)
      · exact (changeAmount_channel i r amount.toNat s n).trans (if_neg other)
      · exact (changeAmount_client i r amount.toNat s d).trans (if_neg other)

/-! ## ACK above 0 (R90) -/

/-- An ACK takes from projected as much relief as amount. -/
theorem acceptNotice_projected (sums : SumsExact s) (record : (s.slot i).record = some r)
    (live : r.phase = .live powered lease (some n)) (lower : n.required < r.amount) :
    projected (acceptNotice i n.required s) = projected s := by
  have committed : (acceptNotice i n.required s).committed = s.committed - r.amount + n.required := by
    rw [acceptNotice_eq record live]
    rfl
  have relief : (acceptNotice i n.required s).relief = s.relief - (r.amount - n.required) := by
    rw [acceptNotice_eq record live]
    rfl
  have amount : r.amount ≤ s.committed := by
    have := sums.weight_le record .committed
    simpa [Figure.of, Figure.weight, Record.liveAmount, Record.isLive, live] using this
  have relieved : r.amount - n.required ≤ s.relief := by
    have := sums.weight_le record .relief
    simpa [Figure.of, Figure.weight, Record.reliefAmount, Record.notice?, live, reliefOf] using this
  rw [projected, projected, committed, relief]
  omega

/-- Settles O28: the notice ends with the change of amount, and only the evaluation of the claim can ask again. -/
theorem ackReducesTheGrant : Obligations.AckReducesTheGrant := by
  intro p c h i r n powered lease s own live positive r'
  have noticed : r.notice? = some n := by simp [Record.notice?, live]
  have acts := answerAct_noticed own noticed .ack
  rw [answerNotice, if_neg positive.ne'] at acts
  have repriced := acceptNotice_repriced own.names.record live
  have handed := handOnChange_handOff { resolved := true, fell := true } (acceptNotice i n.required s)
  refine takes_of (f := answerAct .ack true p c h) rfl own.may.settled acts (repriced.ports.trans handed.ports)
    fun u part body => ⟨(repriced.reamounts.handOff handed).same part body, Becomes.same ?_ body, fun sums lower fits => ?_⟩
  · exact repriced.becomes (powered := powered) (lease := lease) rfl positive fun unnoticed => by
      rw [noticed] at unnoticed
      cases unnoticed
  · have record : ((acceptNotice i n.required s).slot i).record = some r' := congrArg Slot.record repriced.slot
    have within : projected (acceptNotice i n.required s) ≤ (acceptNotice i n.required s).budget := by
      rw [acceptNotice_projected sums own.names.record live lower, repriced.reamounts.frame.part.budget]
      exact fits
    have evaluated := evaluate_within_slot record rfl within
    rw [body.slot]
    refine Eq.trans ?_ repriced.slot
    obtain same | walks := handOn_cases true true (acceptNotice i n.required s)
    · exact (congrArg (State.slot · i) same).trans evaluated
    · refine (congrArg (State.slot · i) walks).trans ((walk_slot_live (r := r') ?_ rfl).trans evaluated)
      exact (congrArg Slot.record evaluated).trans record

end Sys2Proof.Machine
end

section
/-! PROOF. O38: CLOSE_CLIENT frees every record of a client, and what was in flight at the close is answered. -/

namespace Sys2Proof.Machine

/- One proof after another: side by side they need more memory than the check allows. -/
set_option Elab.async false

variable {s t u : State} {p : PortId} {c d : ClientId} {h : Half} {i j : SlotId} {r q : Record} {n : ChannelId}
  {x y z : Channel} {e w : Bool} {l : List SlotId} {f : Record → Bool}

/-! ## A client without records, through the hand-offs -/

/-- Client `d` owns no record. -/
def OwnsNone (d : ClientId) (s : State) : Prop := ∀ j r, (s.slot j).record = some r → r.owner ≠ d

theorem OwnsNone.handOff (h : OwnsNone d s) (handed : HandOff s t) : OwnsNone d t := by
  intro j q record
  have moves := handed.frame.slots j id
  cases before : (s.slot j).record with
  | none =>
    rw [moves.free before] at record
    cases record
  | some r =>
    obtain ⟨r', now, grant, -⟩ := moves.record r before
    obtain rfl := Option.some.inj (now.symm.trans record)
    exact grant.owner ▸ h j r before

theorem post_client_other {kind : NoticeKind} (record : (s.slot j).record = some r) (other : r.owner ≠ d) :
    (post j kind s).client d = s.client d := by
  rw [post_of_record kind record, setKinds_client, if_neg other.symm]

/-- What the hand-offs leave of the client: it owns no record, and its entry is as it was. -/
def Bare (d : ClientId) (o : Client) (t : State) : Prop := OwnsNone d t ∧ t.client d = o

theorem Bare.evaluate {o : Client} (h : Bare d o t) : Bare d o (Machine.evaluate t) := by
  refine evaluate_keepsAll h (fun i required t ⟨bare, same⟩ => ⟨bare.handOff (postReduce_handOff i required t), ?_⟩)
    (fun i r t record noticed ⟨bare, same⟩ => ⟨bare.handOff ?_, ?_⟩) fun t x f bare => bare
  · obtain kept | ⟨r, powered, lease, record, live, posts⟩ := postReduce_cases i required t
    · rw [kept, same]
    · rw [posts]
      have noticed := congrArg Slot.record
        ((setNotice_slot i i r powered lease required t).trans (t.slot_setRecord_same i _))
      exact (post_client_other noticed (bare i r record)).trans same
  · obtain ⟨n, some⟩ := Option.isSome_iff_exists.1 noticed
    exact withdrawNotice_handOff record some
  · have ended := endNotice_handOff i t
    have kept : (endNotice i t).client d = t.client d := by
      unfold endNotice
      split
      · split <;> rfl
      · rfl
    obtain ⟨r', now, -⟩ := (ended.frame.slots i id).record r record
    exact (post_client_other now (bare.handOff ended i r' now)).trans (kept.trans same)

theorem Bare.walk {o : Client} (h : Bare d o t) : Bare d o (Machine.walk t) := by
  refine walk_keeps h fun i t taken ⟨bare, same⟩ => ?_
  obtain ⟨r, record, queued, -⟩ := visit_take taken
  have other := bare i r record
  refine ⟨bare.handOff (admitQueued_handOff record queued), ?_⟩
  obtain ⟨kind, posts⟩ := admitQueued_eq record
  obtain ⟨powered, lease, live⟩ := enterLive_slot (unqueue i r t) i r
  rw [posts, post_client_other live other, enterLive_client, if_neg other.symm]
  exact same

/-- The hand-offs leave the entry of a client without records. -/
theorem handOn_client (none : OwnsNone d s) : (handOn e w s).client d = s.client d :=
  (handOn_keepsAll (P := Bare d (s.client d)) e w ⟨none, rfl⟩ (fun _ => Bare.evaluate) fun _ => Bare.walk).2

/-! ## The channels while the records are freed (R116) -/

/-- How many of these slots hold a live grant of channel `n`. -/
def liveOn (n : ChannelId) (l : List SlotId) (s : State) : Nat :=
  l.countP fun j => (s.slot j).record.any fun r => decide (r.channel = n) && r.isLive

theorem liveOn_congr (same : ∀ j ∈ l, t.slot j = s.slot j) : liveOn n l t = liveOn n l s :=
  List.countP_congr fun j member => by rw [same j member]

theorem freeReporting_channel (i : SlotId) (r : Record) (s : State) (n : ChannelId) : (freeReporting i r s).channel n =
    if n = r.channel then (s.channel n).reported s.tick r else s.channel n :=
  (freeRecord_detached i r s).reported_channel n

/-- A channel from which `k` live grants have been taken: it goes on while one is left, and the last one stops it. -/
structure Drained (k : Nat) (now : Tick) (x y : Channel) : Prop where
  left : k < x.live ∨ k = 0 → SameDrive x y ∧ y.live = x.live - k
  none : 0 < k → k = x.live → SameDrive (x.stop now) y

theorem Drained.refl (now : Tick) (x : Channel) : Drained 0 now x x :=
  ⟨fun _ => ⟨⟨rfl, rfl, rfl, rfl, rfl⟩, rfl⟩, fun some => absurd some (lt_irrefl 0)⟩

/-- A record that is not live is none of the channel's grants. -/
theorem Drained.idle {k : Nat} {now : Tick} (h : Drained k now y z) (drive : SameDrive x y) (live : y.live = x.live) :
    Drained k now x z := by
  obtain ⟨left, none⟩ := h
  rw [live] at left none
  exact ⟨fun more => ⟨drive.trans (left more).1, (left more).2⟩, fun some all => (drive.stop now).trans (none some all)⟩

/-- One live grant more has been taken. -/
theorem Drained.grant {k : Nat} {now : Tick} (live : r.isLive = true) (h : Drained k now (x.reported now r) z) :
    Drained (k + 1) now x z := by
  have drive := x.without_drive r
  have count : (x.without r).live = x.live - 1 := by simp [Channel.without, only, live]
  obtain ⟨left, none⟩ := h
  rw [(Channel.reported_counts now r x).live, count] at left none
  by_cases last : x.live - 1 = 0
  · rw [Channel.reported, count, if_pos ⟨live, last⟩] at left none
    refine ⟨fun more => ?_, fun _ all => ?_⟩
    · obtain more | zero := more
      · omega
      · cases zero
    · exact (drive.stop now).trans (left (.inr (by omega))).1
  · rw [Channel.reported, count, if_neg fun both => last both.2] at left none
    refine ⟨fun more => ?_, fun _ all => ?_⟩
    · obtain more | zero := more
      · obtain ⟨same, fewer⟩ := left (.inl (by omega))
        exact ⟨drive.trans same, by omega⟩
      · cases zero
    · exact (drive.stop now).trans (none (by omega) (by omega))

/-- Freeing the records of several slots takes their live grants from each channel. -/
theorem overRecords_drained (nodup : l.Nodup) (s : State) (n : ChannelId) :
    Drained (liveOn n l s) s.tick (s.channel n) ((overRecords freeReporting l s).channel n) := by
  induction l generalizing s with
  | nil => exact .refl s.tick _
  | cons i rest ih =>
    obtain ⟨out, nodup'⟩ := List.nodup_cons.1 nodup
    unfold overRecords
    cases record : (s.slot i).record with
    | none =>
      have count : liveOn n (i :: rest) s = liveOn n rest s := by
        simp [liveOn, record]
      rw [count]
      exact ih nodup' s
    | some r =>
      have freed := ih nodup' (freeReporting i r s)
      have others : liveOn n rest (freeReporting i r s) = liveOn n rest s := liveOn_congr fun j member => by
        rw [freeReporting_slot, if_neg (ne_of_mem_of_not_mem member out)]
      have now : (freeReporting i r s).tick = s.tick := (freeRecord_detached i r s).reported_part.tick
      rw [others, now, freeReporting_channel] at freed
      have count : liveOn n (i :: rest) s =
          liveOn n rest s + if (decide (r.channel = n) && r.isLive) = true then 1 else 0 := by
        simp [liveOn, List.countP_cons, record]
      rw [count]
      by_cases here : n = r.channel
      · rw [if_pos here] at freed
        by_cases live : r.isLive = true
        · rw [if_pos (by simp [here, live])]
          exact freed.grant live
        · rw [Bool.not_eq_true] at live
          rw [if_neg (by simp [live])]
          refine freed.idle ?_ ?_
          · rw [Channel.reported, if_neg (by simp [live])]
            exact Channel.without_drive r _
          · rw [(Channel.reported_counts ..).live]
            simp [Channel.without, only, live]
      · rw [if_neg here] at freed
        rw [if_neg (by simp [Ne.symm here])]
        exact freed

/-! ## The close, part by part (R134, R135) -/

theorem Channel.reported_kept (now : Tick) (r : Record) (x : Channel) : ChannelKept x (x.reported now r) := by
  have left : ChannelKept x (x.without r) := by constructor <;> rfl
  unfold Channel.reported
  split
  · exact left.trans (.stop now _)
  · exact left

theorem recordsFreed_kept (d : ClientId) (s : State) (n : ChannelId) :
    ChannelKept (s.channel n) ((recordsFreed d s).channel n) := by
  refine overRecords_keeps (P := fun t => ChannelKept (s.channel n) (t.channel n)) (.refl _) fun i r t _ _ kept => ?_
  rw [freeReporting_channel]
  split
  · exact kept.trans (Channel.reported_kept ..)
  · exact kept

/-- Freeing the records of one client leaves the other clients. -/
theorem recordsFreed_client {b : ClientId} (other : b ≠ d) : (recordsFreed d s).client b = s.client b := by
  refine (overRecords_keeps (P := fun t => (∀ j ∈ ownedBy d s, ∀ r, (t.slot j).record = some r → r.owner = d) ∧
    t.client b = s.client b) ⟨fun j member r record => ?_, rfl⟩ ?_).2
  · obtain ⟨q, record', owner⟩ := mem_ownedBy.1 member
    obtain rfl := Option.some.inj (record.symm.trans record')
    exact owner
  · rintro i r t member record ⟨owned, same⟩
    refine ⟨fun j among q now => ?_, ?_⟩
    · rw [freeReporting_slot] at now
      split at now
      · cases now
      · exact owned j among q now
    · rw [freeReporting, lastGrant_client, freeRecord_client, owned i member r record, if_neg other]
      exact same

/-- The part after the records of client `d` have been freed and its entry closed, before the hand-offs. -/
def emptied (d : ClientId) (s : State) : State := (recordsFreed d s).setClient d Client.closed

theorem closeEntry_handOff (d : ClientId) (s : State) : HandOff (emptied d s) (closeEntry d s) := handOnChange_handOff _ _

theorem emptied_slot (d : ClientId) (s : State) (j : SlotId) : (emptied d s).slot j =
    if j ∈ ownedBy d s then { gen := (s.slot j).gen + 1, record := none } else s.slot j := recordsFreed_slot d s j

theorem emptied_client_other {b : ClientId} (other : b ≠ d) : (emptied d s).client b = s.client b :=
  (State.client_setClient _ _ _ _).trans ((if_neg other).trans (recordsFreed_client other))

/-- A record of the client is FREE after the close, in no list. -/
theorem closeEntry_freed (collections : CollectionsExact s) (member : j ∈ ownedBy d s) :
    (closeEntry d s).slot j = { gen := (s.slot j).gen + 1, record := none } ∧ InNoList j (closeEntry d s) := by
  have handed := closeEntry_handOff d s
  have slot : (emptied d s).slot j = { gen := (s.slot j).gen + 1, record := none } :=
    (emptied_slot d s j).trans (if_pos member)
  have free : ((emptied d s).slot j).record = none := congrArg Slot.record slot
  have spent : Spent j (emptied d s) := fun r record => by
    rw [free] at record
    cases record
  have gone : CollectionsExact (emptied d s) := (collections.recordsFreed d).setClient d _
  have stays := handed.spent j spent
  exact ⟨(handed.slot_of_spent spent).trans slot,
    fun member => gone.admission.not_mem (any_of_free free _) (stays.admission member),
    fun member => gone.waitQueue.not_mem (any_of_free free _) (stays.waitQueue member),
    fun member => gone.shedList.not_mem (any_of_free free _) (stays.shedList member)⟩

theorem closeEntry_client (d : ClientId) (s : State) : (closeEntry d s).client d = Client.closed := by
  have none : OwnsNone d (emptied d s) := fun _ _ => recordsFreed_owner
  exact (handOn_client none).trans (State.client_setClient_same _ _ _)

/-- The other clients hold what they held. -/
theorem closeEntry_others {b : ClientId} (other : b ≠ d) : RightsKept (s.client b) ((closeEntry d s).client b) ∧
    ((closeEntry d s).client b).held = (s.client b).held ∧
    ((closeEntry d s).client b).occupied = (s.client b).occupied := by
  have handed := closeEntry_handOff d s
  rw [← emptied_client_other (s := s) other]
  exact ⟨handed.frame.rights b, handed.holdings b⟩

theorem closeEntry_slot_other (out : j ∉ ownedBy d s) : SlotMoves (s.slot j) ((closeEntry d s).slot j) := by
  have moves := (closeEntry_handOff d s).frame.slots j id
  rwa [emptied_slot, if_neg out] at moves

theorem closeEntry_kept (d : ClientId) (s : State) (n : ChannelId) :
    ChannelKept (s.channel n) ((closeEntry d s).channel n) :=
  (recordsFreed_kept d s n).trans ((closeEntry_handOff d s).frame.channels n id)

theorem closeEntry_part (d : ClientId) (s : State) : SamePart s (closeEntry d s) :=
  SamePart.trans (t := s.setClient d Client.closed) (by constructor <;> rfl) (Steady.closeEntry d s).part

theorem closeEntry_ports (d : ClientId) (s : State) : SamePorts s (closeEntry d s) :=
  SamePorts.trans (t := s.setClient d Client.closed) ⟨rfl, rfl, rfl⟩ (Steady.closeEntry d s).ports

theorem emptied_drained (d : ClientId) (s : State) (n : ChannelId) :
    Drained (liveOn n (ownedBy d s) s) s.tick (s.channel n) ((emptied d s).channel n) :=
  overRecords_drained (slotsWhere_nodup _ s) s n

/-- A channel whose live grants were all the client's makes its last-grant report. -/
theorem closeEntry_stops (some : 0 < liveOn n (ownedBy d s) s) (all : liveOn n (ownedBy d s) s = (s.channel n).live) :
    Stops s n (s.channel n) ((closeEntry d s).channel n) := by
  refine handOn_stops ((emptied_drained d s n).none some all) fun j q record queued => ?_
  have now : ((emptied d s).slot j).record = Option.some q := record
  rw [emptied_slot] at now
  split at now
  · cases now
  · exact ⟨q, now, queued, rfl⟩

/-- A channel with live grants of others goes on. -/
theorem closeEntry_goesOn (more : liveOn n (ownedBy d s) s < (s.channel n).live) :
    GoesOn (s.channel n) ((closeEntry d s).channel n) := by
  obtain ⟨drive, left⟩ := (emptied_drained d s n).left (.inl more)
  exact drive.goesOn.trans (handOn_goesOn (s := emptied d s) (.inr (by omega)))

/-- The client's live grants on a channel, counted over all slots. -/
theorem liveOn_ownedBy (d : ClientId) (n : ChannelId) (s : State) : liveOn n (ownedBy d s) s =
    (List.finRange 64).countP fun j => (s.slot j).record.any fun r =>
      decide (r.owner = d) && decide (r.channel = n) && r.isLive := by
  rw [liveOn, ownedBy, slotsWhere, List.countP_filter]
  refine List.countP_congr fun j _ => ?_
  cases (s.slot j).record with
  | none => rfl
  | some r =>
    simp only [Option.any_some, Bool.and_eq_true]
    tauto

/-! ## What was in flight at the close (log entry 29) -/

theorem handleSlot_of_handle {g : BitVec 4} (handle : h.toNat = handleOf j g) : handleSlot h = j := by
  refine Fin.ext ?_
  have := j.isLt
  simp only [handleSlot, Fin.val_ofNat, handle, handleOf]
  omega

theorem names_of_named (found : named h s = some (j, r)) : Names h j r s := by
  have record := record_of_named found
  unfold named at found
  dsimp only at found
  split at found
  · next gen =>
    obtain ⟨q, -, same⟩ := Option.map_eq_some_iff.1 found
    obtain ⟨rfl, rfl⟩ := Prod.mk.inj same
    have generation : (s.slot (handleSlot h)).gen.toNat = h.toNat / 64 := gen
    refine ⟨?_, record⟩
    rw [handleOf, generation]
    simp only [handleSlot, Fin.val_ofNat]
    omega
  · cases found

/-- A RENEW or a RESIZE in flight whose record the close frees is marked. -/
theorem overtake_marks {k : Instr} {q : PortId} (handed : (s.port q).handed = some k) (change : changeOf k = some (d, h))
    (names : Names h j r s) (owner : r.owner = d) : (overtake d s).port q = { s.port q with overtaken := true } := by
  have found := named_of_handle s names.handle names.record
  rw [overtake_port, PortUnit.overtakenBy]
  simp [handed, change, found, owner]

/-- A port whose command in flight loses no record is not marked. -/
theorem overtake_spares {q : PortId} (safe : ∀ (k : Instr) (h : Half) (j : SlotId) (r : Record),
    (s.port q).handed = some k → changeOf k = some (d, h) → Names h j r s → r.owner ≠ d) :
    (overtake d s).port q = s.port q := by
  rw [overtake_port]
  refine PortUnit.overtakenBy_same d s _ fun k h handed change => ?_
  cases found : named h s with
  | none => rfl
  | some x => simpa using safe k h x.1 x.2 handed change (names_of_named found)

/-- A RENEW or a RESIZE whose record a close has freed is STALE. -/
theorem inFlight_stale {k : Instr} {q : PortId} {amount : Half} (settled : t.resetSafe = false)
    (row : k = .renew q d h ∨ (k = .resize q d h amount ∧ 1 ≤ amount.toNat ∧ amount.toNat ≤ 2500))
    (may : clientMaySend q d = true) (handed : (t.port q).handed = some k) (overtaken : (t.port q).overtaken = true)
    (serves : t.mode.serves = true) (inside : h.toNat ≤ 1023) (free : (t.slot (handleSlot h)).record = none) :
    OnlyAnswers q k { result := .stale } t := by
  obtain ⟨code, payload, parts⟩ : ∃ code payload, commandParts k = some (q, d, code, payload) := by
    obtain rfl | ⟨rfl, -⟩ := row <;> exact ⟨_, _, rfl⟩
  obtain ⟨-, -, -, stale⟩ := portAndSessionTestsComeFirst k q d code payload t parts settled
  exact stale h amount row may handed overtaken serves inside (.inl free)

theorem Answered.port_other {a : Reply} {i : Instr} {q : PortId} (h : Answered p i a s t)
    (other : (s.port q).handed ≠ some i) : t.port q = s.port q := by
  by_cases here : q = p
  · subst here
    exact h.own.trans (if_neg other)
  · exact h.other q here

/-! ## CLOSE_CLIENT -/

theorem closeClientAct_ok {client : Byte} (may : SupervisorMayAct p c s) (notSafe : s.mode ≠ .safe)
    (named : client.toNat = d.val) (other : d ≠ 0) (isOpen : (s.client d).isOpen = true) :
    closeClientAct p c client s =
      (closeEntry d (overtake d s),
        { result := .ok
          payload := byte1 ((List.finRange 64).countP fun j => (s.slot j).record.any fun r => decide (r.owner = d))
            ++ byte2 (s.client d).held }) := by
  have passes : firstFailure (closeOrder client s) = none := by
    rw [closeOrder, (Mode.notSafe_iff _).2 notSafe, sessionFieldOk_of_toNat named other, clientOf_of_toNat named, isOpen]
    rfl
  refine (supervisor_checked (rest := closeOrder client) may _ passes).trans ?_
  simp only [clientOf_of_toNat named, slotsWhere, List.countP_eq_length_filter]
  rfl

/-- Settles O38: the close frees what the client owns, and its hand-offs give nothing back to it. -/
theorem closeClientFreesEveryRecord : Obligations.CloseClientFreesEveryRecord := by
  intro p c client d s may notSafe named other isOpen collections mine count
  have acts := closeClientAct_ok may notSafe named other isOpen
  have settled := command_settled (p := p) (i := .closeClient p c client) may.settled acts
  have answered := respond_answered p (.closeClient p c client)
    { result := .ok, payload := byte1 count ++ byte2 (s.client d).held } (closeEntry_ports d (overtake d s))
  have body := respond_body p (.closeClient p c client)
    { result := .ok, payload := byte1 count ++ byte2 (s.client d).held } (closeEntry d (overtake d s))
  have part : SamePart s _ := ((overtake_part d s).trans (closeEntry_part d (overtake d s))).trans
    (respond_part p (.closeClient p c client) { result := .ok, payload := byte1 count ++ byte2 (s.client d).held } _)
  have maySend (q : PortId) : clientMaySend q d = true := by cases q <;> simp [clientMaySend, other]
  have collections' : CollectionsExact (overtake d s) := collections.aside (.overtake d s)
  have closed := (body.client d).trans (closeEntry_client d (overtake d s))
  have freed {j : SlotId} (own : mine j) := closeEntry_freed collections' (mem_ownedBy.2 own)
  refine ⟨_, settled, answered, driveLines_driven _, fun q h amount k j r handed row names owner serves => ?inFlight,
    fun q safe => overtake_spares safe, fun q k code payload parts client inTime => ?late, fun j own => ?freed, closed,
    fun b apart => ?others, fun j out => ?kept, fun n => ?channel, part, fun n => ⟨fun some all => ?stops, fun more => ?goesOn⟩⟩
  case inFlight =>
    have change : changeOf k = some (d, h) := by obtain rfl | ⟨rfl, -⟩ := row <;> rfl
    have marked := overtake_marks handed change names owner
    have port := (answered.port_other (q := q) (by
      rw [marked]
      intro same
      obtain rfl := Option.some.inj (handed.symm.trans same)
      cases change)).trans marked
    have free := (freed ⟨r, names.record, owner⟩).1
    refine ⟨port, inFlight_stale (part.resetSafe.trans may.settled) row (maySend q) (by rw [port]; exact handed) (by rw [port])
      (by rw [part.mode]; exact serves) (of_decide_eq_true (handleOk_of names.handle))
      (by rw [handleSlot_of_handle names.handle, body.slot, free])⟩
  case late =>
    obtain ⟨-, -, shut, -⟩ := portAndSessionTestsComeFirst k q d code payload _ parts (part.resetSafe.trans may.settled)
    refine shut client (maySend q) (by rw [closed]; rfl) fun ⟨_, handed, overtaken, _⟩ => ?_
    obtain inTime | fresh := inTime
    · exact Bool.false_ne_true (inTime.symm.trans overtaken)
    · exact fresh handed
  case freed =>
    obtain ⟨slot, admission, waitQueue, shedList⟩ := freed own
    exact ⟨(body.slot j).trans slot, body.admission ▸ admission, body.waitQueue ▸ waitQueue, body.shedList ▸ shedList⟩
  case others =>
    rw [body.client]
    exact closeEntry_others (s := overtake d s) apart
  case kept =>
    rw [body.slot]
    exact closeEntry_slot_other (s := overtake d s) fun member => out (mem_ownedBy.1 member)
  case channel =>
    rw [body.channel]
    exact closeEntry_kept d (overtake d s) n
  case stops =>
    rw [body.channel]
    have mineOn := liveOn_ownedBy d n (overtake d s)
    obtain ⟨stopping, off, stays, goesOn⟩ := closeEntry_stops (s := overtake d s) (n := n) (d := d)
      (by rw [mineOn]; exact some) (by rw [mineOn]; exact all.symm)
    exact ⟨stopping, off, stays, goesOn⟩
  case goesOn =>
    rw [body.channel]
    exact closeEntry_goesOn (s := overtake d s) (by rw [liveOn_ownedBy]; exact more)

end Sys2Proof.Machine
end
